-- ==== Sys2Proof/Word.lean ====
section
/-! DEFINITION. The widths of the TG64's words, addresses, numbers and sets, as spec/ gives them. -/

namespace Sys2Proof

/-- One byte of data (R65). -/
abbrev Byte := BitVec 8

/-- One word of the host window (R167). -/
abbrev Word := BitVec 32

/-- A host address (section 5 of the introduction). -/
abbrev HostAddr := BitVec 64

/-- A local address: 30 bits, so it always lies in the 1 GiB aperture (R13). -/
abbrev LocalAddr := BitVec 30

/-- A requester port, 0 to 7 (R64). -/
abbrev PortNo := Fin 8

/-- A command slot, 0 to 3 (R133). -/
abbrev SlotNo := Fin 4

/-- A grant index, 0 to 63 (R1). -/
abbrev GrantIdx := Fin 64

/-- A tag of the outstanding read table, 0 to 31 (R91). -/
abbrev TagNo := Fin 32

/-- A requester's own name for a read, 0 to 7 (R65, R181). -/
abbrev Label := BitVec 3

/-- A generation number: it wraps from 15 to 0 (R33). -/
abbrev GenNo := BitVec 4

/-- A sequence, the second half of a handle (R7). -/
abbrev Seq := BitVec 8

/-- A set of requesters or of labels: bit n is member n (R178, R180). -/
abbrev Set8 := BitVec 8

/-- A set of access kinds: bit 0 READ, bit 1 WRITE (R178). -/
abbrev Rights := BitVec 2

/-- A set of notice causes, one bit a cause (R176). -/
abbrev CauseSet := BitVec 15

end Sys2Proof
end

