-- ==== Sys2Proof/Syntax.lean ====
section
/-! DEFINITION. The commands and events of the TG64: one constructor for each row of spec/opcode_table.json.
A command of the engine carries no operand: its arguments stand in the argument area of the slot at the front
of the submission order (R135, R141). -/

namespace Sys2Proof

/-- The kind of an access (R65; encoded 0 READ, 1 WRITE: R178). -/
inductive AccessKind where
  | read
  | write
  deriving DecidableEq, Repr

/-- What a master drives on the local request interface when it presents an access (R181). The label is driven
for a WRITE too, and the port does not read it. -/
structure Presented where
  kind   : AccessKind
  addr   : LocalAddr
  /-- The 10-bit length field as driven: bit 9 set means 512. -/
  length : BitVec 10
  label  : Label
  /-- The bytes of a WRITE, in address order; none for a READ (R65). -/
  data   : List Byte
  deriving DecidableEq, Repr

/-- A completion as it arrives from the host, before the link interface hands it over (R173). -/
inductive Completion where
  /-- Status success, with the bytes it carries. -/
  | success (data : List Byte)
  /-- The link's unsupported-request status. -/
  | unsupported
  /-- Any other error status. -/
  | otherError
  deriving DecidableEq, Repr

/-- The commands and events, in the table's order. -/
inductive Instr where
  /-- POWER_ON (R52). -/
  | powerOn
  /-- TRAINING_COMPLETE (R165): the credit the link partner advertises, in units. -/
  | trainingComplete (posted read : Nat)
  /-- LINK_LOST (R165). -/
  | linkLost
  /-- HOT_RESET (R165). -/
  | hotReset
  /-- FUNCTION_RESET (R166). -/
  | functionReset
  /-- CREDIT_GRANT (R168): the units of each credit that the link partner adds. -/
  | creditGrant (posted read : Nat)
  /-- LRST_ASSERTION (R87). -/
  | lrstAssertion
  /-- LRST_DEASSERTION (R88). -/
  | lrstDeassertion
  /-- PRESENT_ACCESS (R70). -/
  | presentAccess (port : PortNo) (access : Presented)
  /-- TAG_GRANT (R96). -/
  | tagGrant
  /-- WRITE_GRANT (R116). -/
  | writeGrant
  /-- WRITE_LEAVING (R118). -/
  | writeLeaving
  /-- MEMORY_READ_SEND (R169). -/
  | memoryReadSend
  /-- COMPLETION_PART (R100): the tag value it names, which may be above 31 (R173). -/
  | completionPart (tag : Nat) (completion : Completion)
  /-- DEADLINE_EXPIRY (R105). -/
  | deadlineExpiry (tag : TagNo)
  /-- PARK_PERIOD_END (R107). -/
  | parkPeriodEnd (tag : TagNo)
  /-- LEASE_EXPIRY (R56). -/
  | leaseExpiry (index : GrantIdx)
  /-- SUBMISSION (R138): the value written to the slot's submit word. -/
  | submission (slot : SlotNo) (value : Word)
  /-- OPEN (R24). -/
  | openGrant
  /-- MODIFY (R40). -/
  | modify
  /-- CLOSE (R44). -/
  | close
  /-- RENEW (R60). -/
  | renew
  /-- QUERY (R25). -/
  | query
  /-- LOOKUP (R27). -/
  | lookup
  /-- FENCE (R124). -/
  | fence
  /-- SET-REQUESTER (R82). -/
  | setRequester
  /-- QUERY-REQUESTER (R83). -/
  | queryRequester
  /-- RESUME (R84). -/
  | resume
  /-- RESET-REQUESTER (R85). -/
  | resetRequester
  /-- SET-TIMING (R147). -/
  | setTiming
  /-- BADOP (R143). -/
  | badop
  /-- CANCEL (R140): bits 31:16 of the value written, whose bits 15:0 are the CANCEL code (R177). -/
  | cancel (slot : SlotNo) (upper : BitVec 16)
  /-- HOST_WINDOW_WRITE (R167): the offset of its first byte, its width in bytes, the byte enables of the word, and
  the value (read only when the write is taken). -/
  | hostWindowWrite (offset : BitVec 14) (width : Nat) (enables : BitVec 4) (value : Word)
  /-- ACKNOWLEDGE (R154). -/
  | acknowledge (value : Word)
  /-- ENABLE (R155). -/
  | enable (value : Word)
  /-- SET_ENABLE (R155). -/
  | setEnable (value : Word)
  /-- CLEAR_ENABLE (R155). -/
  | clearEnable (value : Word)
  /-- MASTER_ENABLE (R160). -/
  | masterEnable (value : Word)
  /-- EXPIRED_SET_CLEAR (R59): which of the two words (0 for 0x0200, 1 for 0x0204), and the value. -/
  | expiredSetClear (word : Fin 2) (value : Word)
  /-- HOLDOFF_EXPIRY (R159). -/
  | holdoffExpiry
  /-- MESSAGE_SEND (R172): the messaging enable of configuration space, taken if none has been read yet for the message at the
  front (log entry 9). -/
  | messageSend (messaging : Bool)
  deriving DecidableEq, Repr

end Sys2Proof
end

