-- ==== Sys2Proof/Config.lean ====
section
/-! DEFINITION. What the TG64 fixes once: sizes, limits, defaults and the identity words. The spec leaves no
value open that a command stores or reports, so there is no free value here. -/

namespace Sys2Proof.Config

/-- The page on which grants start and end, and which no access crosses (R9, R13). -/
def pageBytes : Nat := 4096

/-- The end of the local aperture (R9). -/
def apertureEnd : Nat := 0x40000000

/-- The longest grant, 256 MiB (R22). -/
def maxGrantBytes : Nat := 256 * 1024 * 1024

/-- The end of host memory: 2^64 (R22). -/
def hostEnd : Nat := 2 ^ 64

/-- The longest single access (R12). -/
def maxAccessBytes : Nat := 512

/-- Places in the write queue (R113). -/
def queuePlaces : Nat := 16

/-- The highest value of a read or write count (R19). -/
def maxAccessCount : Nat := 4294967295

/-- The highest value of an overflow count (R78) and of the event count (R157). -/
def maxSmallCount : Nat := 255

/-- The read limit of a port by default, and the highest one (R64, R82). -/
def defaultReadLimit : Nat := 4
def maxReadLimit : Nat := 8

/-- The timing parameters' defaults (R147). -/
def defaultTimeoutMs : Nat := 16
def maxTimeoutMs : Nat := 64
def defaultThreshold : Nat := 1
def defaultHoldoff : Nat := 0

/-- Timers are counted in units of 10 µs, the unit of the holdoff (R147): 100 units are 1 ms. -/
def unitsPerMs : Nat := 100

/-- Posted-write credit of an interrupt message, and of a memory write of n bytes (R168). -/
def messageCredit : Nat := 2
def writeCredit (n : Nat) : Nat := 1 + (n + 15) / 16

/-- Read credit of a memory read (R168). -/
def readCredit : Nat := 1

/-- The identity words (R176). -/
def partCode : Word := 0x00007064#32
def revision : Word := 0x00000001#32

/-- The CANCEL code of a submit word (R177). -/
def cancelCode : BitVec 16 := 0x00FF#16

/-- Bytes of the host window (R167). -/
def windowBytes : Nat := 16384

end Sys2Proof.Config
end

