-- ==== Sys2Proof/Machine/Fields.lean ====
section
/-! DEFINITION. Bit fields, sets held as bits, and how a written window word is recognised. -/

namespace Sys2Proof.Machine

/-- The length or byte count of a 10-bit field: bit 9 set means 512, else bits 8:0 (R181). -/
def lengthField (f : BitVec 10) : Nat :=
  if f.getLsbD 9 then 512 else (f.extractLsb' 0 9).toNat

/-- A field of `width` bits whose lowest bit is bit `lo` of a word (R178). -/
def put (lo width : Nat) (v : Nat) : Word :=
  ((BitVec.ofNat width v).setWidth 32) <<< lo

/-- A flag at bit `lo` of a word. -/
def flag (lo : Nat) (b : Bool) : Word :=
  put lo 1 b.toNat

/-- The set of one member, as bits. -/
def single {w : Nat} (n : Nat) : BitVec w :=
  1#w <<< n

/-- How many members a set held as bits has. -/
def members {w : Nat} (b : BitVec w) : Nat :=
  (List.range w).countP b.getLsbD

/-- The set of the numbers below `n` that satisfy `p`, as bits. -/
def maskOf : (n : Nat) → (Nat → Bool) → BitVec n
  | 0, _ => 0#0
  | n + 1, p => BitVec.cons (p n) (maskOf n p)

/-- A host write is taken when it covers exactly one whole word, every byte enabled (R167). -/
def writeTaken (offset : BitVec 14) (width : Nat) (enables : BitVec 4) : Bool :=
  offset.toNat % 4 == 0 && width == 4 && enables == 0xF#4

/-- The offsets of words whose write has a row of its own in the table: the notice words, the expired set, and the
submit word of each slot (R176, R177). -/
def hasOwnRow (offset : BitVec 14) : Bool :=
  [0x0104, 0x010C, 0x0110, 0x0114, 0x0118, 0x0200, 0x0204, 0x1000, 0x1100, 0x1200, 0x1300].contains offset.toNat

end Sys2Proof.Machine
end

