-- ==== Sys2Proof/Machine/State.lean ====
section
/-! DEFINITION. The state of the TG64 as plain data, unit by unit, and its value after power-on. -/

namespace Sys2Proof.Machine

/-! ### Results, handles and accesses -/

/-- The results of read ends, write answers and lookups (R68). -/
inductive Result where
  | ok
  | malformed
  | halted
  | nogrant
  | closing
  | denied
  | hosterr
  | timeout
  | linkdown
  deriving DecidableEq, Repr

/-- The pair that names a grant in a command (section 1.3). -/
structure Handle where
  index : GrantIdx
  seq   : Seq
  deriving DecidableEq, Repr

/-- An access held at the head of a port (R65). -/
inductive Access where
  | read (addr : LocalAddr) (length : Nat) (label : Label)
  | write (addr : LocalAddr) (length : Nat) (data : List Byte)
  deriving DecidableEq, Repr

/-! ### The grant table (R1) -/

/-- The mapping under which accesses are translated, with its in-flight count (R1, R28). -/
structure Generation where
  number   : GenNo
  /-- Bytes covered from the local base. -/
  length   : Nat
  hostBase : HostAddr
  rights   : Rights
  clients  : Set8
  count    : Nat
  deriving DecidableEq, Repr

/-- What is kept of the mapping that a MODIFY replaced, while its traffic drains (R34). -/
structure PrevGeneration where
  number   : GenNo
  length   : Nat
  hostBase : HostAddr
  count    : Nat
  deriving DecidableEq, Repr

/-- Why a grant is closing (R4). -/
inductive CloseCause where
  | command
  | expired
  deriving DecidableEq, Repr

/-- The states of a grant not in FREE (section 1.2), each with the fields present only in it (R1). -/
inductive Phase where
  | opened
  | draining (prev : PrevGeneration)
  | closing (cause : CloseCause) (prev : Option PrevGeneration)
  deriving DecidableEq, Repr

/-- The two kinds of timed lease (R53). -/
inductive TimedKind where
  | absolute
  | idle
  deriving DecidableEq, Repr

/-- A lease (R53): kind NONE, or a timed kind with its period in ms and its remaining time in units of 10 µs. -/
inductive Lease where
  | untimed
  | timed (kind : TimedKind) (period : BitVec 16) (remaining : Nat)
  deriving DecidableEq, Repr

/-- The fields of a record that is not FREE (R1). -/
structure Grant where
  phase      : Phase
  localBase  : LocalAddr
  cur        : Generation
  lease      : Lease
  waiting    : Option SlotNo
  readCount  : Nat
  writeCount : Nat
  /-- The host's own label for the grant. -/
  tag        : Word
  deriving DecidableEq, Repr

/-- One of the 64 records: its sequence, and a grant unless it is FREE (R1). -/
structure Record where
  seq   : Seq
  grant : Option Grant
  deriving DecidableEq, Repr

/-! ### The requester ports (R64) -/

/-- The description of one refused access or failed read (R76). -/
structure FaultRecord where
  result     : Result
  kind       : AccessKind
  addr       : LocalAddr
  length     : Nat
  label      : Option Label
  handle     : Option Handle
  generation : Option GenNo
  deriving DecidableEq, Repr

/-- Whether a requester's new accesses may be looked up (R64). -/
inductive RunState where
  | run
  | halted
  deriving DecidableEq, Repr

/-- What a captured fault does to the run state (R79): CONTINUE or HALT. -/
inductive FaultPolicy where
  | carryOn
  | halt
  deriving DecidableEq, Repr

/-- The state of one requester port (R64). -/
structure Port where
  run         : RunState
  policy      : FaultPolicy
  readLimit   : Nat
  outstanding : Nat
  labels      : Set8
  head        : Option Access
  fault       : Option FaultRecord
  overflow    : Nat
  deriving DecidableEq, Repr

/-! ### The read unit (R91) -/

/-- The read fields of a WAITING tag (R91). -/
structure ReadInfo where
  requester : PortNo
  label     : Label
  detached  : Bool
  index     : GrantIdx
  gen       : GenNo
  hostAddr  : HostAddr
  length    : Nat
  received  : Nat
  deriving DecidableEq, Repr

/-- One entry of the outstanding read table (R91): the issue timeout in ms, the time remaining in units of 10 µs. -/
inductive TagEntry where
  | free
  | waiting (read : ReadInfo) (issueTimeout : Nat) (remaining : Nat)
  | parked (issueTimeout : Nat) (remaining : Nat)
  deriving DecidableEq, Repr

/-! ### The write queue (R113) -/

/-- One posted write on its way to the link (R113). -/
structure QueueEntry where
  requester : PortNo
  index     : GrantIdx
  gen       : GenNo
  hostAddr  : HostAddr
  length    : Nat
  data      : List Byte
  deriving DecidableEq, Repr

/-! ### Command slots and fence snapshots (R133, R125) -/

/-- The traffic a FENCE waits for (R125): bit t of `tags` is tag t, bit k of `entries` is the entry now k places
behind the head of the write queue (entries leave from the head only: R119; log entry 18). -/
structure Snapshot where
  tags    : BitVec 32
  entries : BitVec 16
  deriving DecidableEq, Repr

/-- Where a slot stands in its command's life (R133). -/
inductive SlotState where
  | idle
  | pending
  | waiting
  | done
  deriving DecidableEq, Repr

/-- How a command ended (section 8.7; `none` from submission until the end: R137). -/
inductive Status where
  | none
  | ok
  | overtaken
  | cancelled
  | badop
  | badarg
  | overlap
  | full
  | stale
  | state
  | draining
  | limit
  deriving DecidableEq, Repr

/-- One command slot (R133). -/
structure Slot where
  state    : SlotState
  opcode   : BitVec 16
  args     : Vector Word 28
  result   : Vector Word 32
  status   : Status
  collided : Bool
  snapshot : Option Snapshot
  deriving DecidableEq, Repr

/-- The timing parameters (R147): the completion timeout in ms, the moderation threshold, the holdoff in 10 µs units. -/
structure Timing where
  timeout   : Nat
  threshold : Nat
  holdoff   : Nat
  deriving DecidableEq, Repr

/-! ### The notice unit (R151) -/

/-- The notice unit's own state (R151): the holdoff timer is stopped, or running with a time left in 10 µs units. -/
structure Notice where
  status       : CauseSet
  enable       : CauseSet
  masterEnable : Bool
  eventCount   : Nat
  holdoffTimer : Option Nat
  deriving DecidableEq, Repr

/-! ### The link interface (R165, R168, R169) -/

/-- A request the part makes as a master of the link (R169). -/
inductive Request where
  | memRead (tag : TagNo) (addr : HostAddr) (length : Nat)
  | memWrite (addr : HostAddr) (length : Nat) (data : List Byte)
  | message
  deriving DecidableEq, Repr

/-- The link interface: link state (UP or not), the two credit amounts, the outbound list (oldest first), and the
messaging enable of configuration space (R165, R168, R169, R172). The enable is read once for each message, as the message
reaches the front, and is held here while that message waits for credit; off while none is held (log entry 9). -/
structure Link where
  up           : Bool
  postedCredit : Nat
  readCredit   : Nat
  outbound     : List Request
  messaging    : Bool
  deriving DecidableEq, Repr

/-! ### What the ports answer (R66, R67) -/

/-- An answer of a port to its requester (R66, R67). -/
inductive Answer where
  | readTaken (label : Label)
  | beat (label : Label) (offset : Nat) (bytes : List Byte)
  | readEnd (label : Label) (result : Result) (atHead : Bool)
  | writeAnswer (result : Result)
  /-- At teardown: one read end, result LINKDOWN and at-head no, for each label of the set; the spec gives these no
  order among themselves (R89; log entry 6). -/
  | linkdownEnds (labels : Set8)
  deriving DecidableEq, Repr

/-! ### The whole -/

/-- The state of the TG64. `answers`, `sent` and `pending` are the model's own: what the ports have answered and what
has gone out on the link, oldest first, and the commands that wait. -/
structure State where
  /-- R1. -/
  grants    : Vector Record 64
  /-- The expired set: bit n is index n (R58). -/
  expired   : BitVec 64
  /-- R64. -/
  ports     : Vector Port 8
  /-- Whether the LRST line is asserted (R87, R88). -/
  lrst      : Bool
  /-- R91. -/
  tags      : Vector TagEntry 32
  /-- The tag allocator's last-granted port (R96). -/
  tagLast   : PortNo
  /-- The write queue, head first (R113). -/
  queue     : List QueueEntry
  /-- The write arbiter's last-granted port (R114). -/
  writeLast : PortNo
  /-- R133. -/
  slots     : Vector Slot 4
  /-- The submission order, oldest first (R141). -/
  order     : List SlotNo
  timing    : Timing
  notice    : Notice
  link      : Link
  answers   : List (PortNo × Answer)
  sent      : List Request
  pending   : List Instr
  deriving DecidableEq, Repr

/-- Why the block stops: it never does. Nothing in the spec stops the part: every refusal of an access or a command is
an answer, a status or a captured fault, all of them in State. Safe: there is nothing to raise. -/
inductive Fault where
  deriving DecidableEq, Repr

/-- Why a command has no meaning in this model. -/
inductive Refusal where
  /-- The row has no meaning yet. Raised by an arm of `exec` only. Safe: the model stops where the part goes on. -/
  | notModelled (mnemonic : String)
  deriving DecidableEq, Repr

/-! ### Values after power-on -/

/-- A FREE record with the sequence of power-on (R2, R7). -/
def Record.initial : Record :=
  { seq := 1#8, grant := none }

/-- A port's values after power-on and after teardown (R64). -/
def Port.initial : Port :=
  { run := .run, policy := .carryOn, readLimit := Config.defaultReadLimit, outstanding := 0, labels := 0#8,
    head := none, fault := none, overflow := 0 }

/-- A slot's values after power-on and after teardown (R133). -/
def Slot.initial : Slot :=
  { state := .idle, opcode := 0#16, args := Vector.replicate 28 0#32, result := Vector.replicate 32 0#32,
    status := .none, collided := false, snapshot := none }

/-- The timing parameters' defaults (R147, R149). -/
def Timing.initial : Timing :=
  { timeout := Config.defaultTimeoutMs, threshold := Config.defaultThreshold, holdoff := Config.defaultHoldoff }

/-- The notice unit's values after power-on and after teardown (R151). -/
def Notice.initial : Notice :=
  { status := 0#15, enable := 0#15, masterEnable := false, eventCount := 0, holdoffTimer := none }

/-- The link interface at power-on: DOWN, nothing granted, nothing to send, messaging off (R165, R168, R172). -/
def Link.initial : Link :=
  { up := false, postedCredit := 0, readCredit := 0, outbound := [], messaging := false }

/-- The part right after power-on (R2, R52, R58, R90, R93, R113, R114, R150, R151, R165). The spec gives the LRST line no
level at power-on: deasserted is a DESIGN CHOICE (log entry 1). -/
def State.reset : State :=
  { grants := Vector.replicate 64 Record.initial
    expired := 0#64
    ports := Vector.replicate 8 Port.initial
    lrst := false
    tags := Vector.replicate 32 TagEntry.free
    tagLast := 7
    queue := []
    writeLast := 7
    slots := Vector.replicate 4 Slot.initial
    order := []
    timing := Timing.initial
    notice := Notice.initial
    link := Link.initial
    answers := []
    sent := []
    pending := [] }

end Sys2Proof.Machine
end

