-- ==== Sys2Proof/Machine/Flags.lean ====
section
/-! DEFINITION. The notice causes, the pending set, events and moderation (chapter 9). A command's change sets causes
in `status`; `moderate` then counts the entries into the pending set that the whole change made, and tests once. -/

namespace Sys2Proof.Machine

/-! ### The causes (R152, bits as R176 gives them) -/

/-- SLOT_DONE0 to SLOT_DONE3: bits 3:0. -/
def causeSlotDone (k : SlotNo) : CauseSet := single k.val

/-- REQ_FAULT0 to REQ_FAULT7: bits 11:4. -/
def causeReqFault (p : PortNo) : CauseSet := single (4 + p.val)

/-- GRANT_EXPIRED: bit 12. -/
def causeGrantExpired : CauseSet := single 12

/-- COLLISION: bit 13. -/
def causeCollision : CauseSet := single 13

/-- STRAY_COMPLETION: bit 14. -/
def causeStray : CauseSet := single 14

/-- The causes a written word names: bits 14:0, the others ignored (R155, R176). -/
def causesOf (v : Word) : CauseSet := v.extractLsb' 0 15

/-- The pending set: status ∩ enable (R156). -/
def Notice.pendingSet (n : Notice) : CauseSet := n.status &&& n.enable

/-- Adds causes to status (R153). -/
def State.setCauses (c : CauseSet) (s : State) : State :=
  { s with notice := { s.notice with status := s.notice.status ||| c } }

/-! ### Send attempts (R158, R172) -/

/-- Whether the outbound list holds a message not yet sent. -/
def Link.hasMessage (l : Link) : Bool := l.outbound.contains Request.message

/-- Hands a message to the link interface: it joins the outbound list, or merges into the one waiting there (R172). -/
def State.handMessage (s : State) : State :=
  if s.link.hasMessage then s
  else { s with link := { s.link with outbound := s.link.outbound ++ [Request.message] } }

/-- The event count becomes 0 and the holdoff timer stops (R158). -/
def State.restartCount (s : State) : State :=
  { s with notice := { s.notice with eventCount := 0, holdoffTimer := none } }

/-- A send attempt (R158): with master enable off it changes nothing. -/
def State.sendAttempt (s : State) : State :=
  if s.notice.masterEnable then
    if s.notice.pendingSet = 0#15 then s.restartCount else s.handMessage.restartCount
  else s

/-! ### Moderation (R157, R148) -/

/-- How many causes entered the pending set between two states: the events of the change (R156). -/
def eventsBetween (before after : State) : Nat :=
  members (after.notice.pendingSet &&& ~~~ before.notice.pendingSet)

/-- The event count after `n` events: it stays at 255 (R157). -/
def countAfter (c n : Nat) : Nat :=
  if n = 0 then c else min Config.maxSmallCount (c + n)

/-- The holdoff timer starts with the holdoff in force (R157). -/
def State.startHoldoff (s : State) : State :=
  { s with notice := { s.notice with holdoffTimer := some s.timing.holdoff } }

/-- What moderation makes of one change from `before` to `after` (R157). The count is tested once, after all events of
the change are added; a change of the threshold is a reason to test too (R148; log entries 7 and 8). -/
def moderate (before after : State) : State :=
  let n := eventsBetween before after
  let c := countAfter after.notice.eventCount n
  let s := { after with notice := { after.notice with eventCount := c } }
  if (0 < n ∨ before.timing.threshold ≠ after.timing.threshold) ∧ after.timing.threshold ≤ c then s.sendAttempt
  else if 0 < n ∧ before.notice.eventCount = 0 ∧ 0 < after.timing.holdoff then s.startHoldoff
  else s

end Sys2Proof.Machine
end

