-- ==== Sys2Proof/Machine/Operands.lean ====
section
/-! DEFINITION. The argument area and the result area of a slot: where each field of a command stands and how it is
encoded (R177 to R180). Offsets are those of the chapter Host Window and Interface Layouts. -/

namespace Sys2Proof.Machine

/-! ### The argument area (R179) -/

/-- The argument word at an offset 0x10 to 0x7C of the slot (R177). -/
def Slot.arg (sl : Slot) (offset : Nat) : Word :=
  (sl.args[(offset - 0x10) / 4]?).getD 0#32

/-- A grant index held in bits 13:8 (R178). -/
def indexField (w : Word) : GrantIdx := (w.extractLsb' 8 6).toFin

/-- +0x10: handle, bits 13:0. -/
def Slot.handle (sl : Slot) : Handle :=
  { index := indexField (sl.arg 0x10), seq := (sl.arg 0x10).extractLsb' 0 8 }

/-- +0x10: index, bits 13:8 (QUERY). -/
def Slot.index (sl : Slot) : GrantIdx := indexField (sl.arg 0x10)

/-- +0x14: presence set, all 32 bits. -/
def Slot.presence (sl : Slot) : Word := sl.arg 0x14

/-- +0x14: mode, bits 7:0 (QUERY). -/
def Slot.mode (sl : Slot) : BitVec 8 := (sl.arg 0x14).extractLsb' 0 8

/-- +0x18: local address, bits 29:0. -/
def Slot.localAddr (sl : Slot) : LocalAddr := (sl.arg 0x18).extractLsb' 0 30

/-- +0x1C: length in bytes, all 32 bits. -/
def Slot.length (sl : Slot) : Nat := (sl.arg 0x1C).toNat

/-- +0x20, +0x24: host base, the lower half first (R178). -/
def Slot.hostBase (sl : Slot) : HostAddr := sl.arg 0x24 ++ sl.arg 0x20

/-- +0x28, bits 7:0: rights. -/
def Slot.rightsField (sl : Slot) : BitVec 8 := (sl.arg 0x28).extractLsb' 0 8

/-- +0x28, bits 15:8: client set. -/
def Slot.clients (sl : Slot) : Set8 := (sl.arg 0x28).extractLsb' 8 8

/-- +0x2C, bits 7:0: lease kind. -/
def Slot.leaseKind (sl : Slot) : BitVec 8 := (sl.arg 0x2C).extractLsb' 0 8

/-- +0x30, bits 15:0: lease period in ms. -/
def Slot.period (sl : Slot) : BitVec 16 := (sl.arg 0x30).extractLsb' 0 16

/-- +0x34: the host's tag. -/
def Slot.hostTag (sl : Slot) : Word := sl.arg 0x34

/-- +0x38, bits 2:0: requester. -/
def Slot.requester (sl : Slot) : PortNo := ((sl.arg 0x38).extractLsb' 0 3).toFin

/-- +0x3C, bits 7:0: access kind; none for a value that names neither (R27). -/
def Slot.accessKind (sl : Slot) : Option AccessKind :=
  if (sl.arg 0x3C).extractLsb' 0 8 = 0#8 then some .read
  else if (sl.arg 0x3C).extractLsb' 0 8 = 1#8 then some .write
  else none

/-- +0x40, bits 7:0: requester set (FENCE). -/
def Slot.requesters (sl : Slot) : Set8 := (sl.arg 0x40).extractLsb' 0 8

/-- +0x44, bits 7:0: fault policy; none for a value that names neither (R82). -/
def Slot.policy (sl : Slot) : Option FaultPolicy :=
  if (sl.arg 0x44).extractLsb' 0 8 = 0#8 then some .carryOn
  else if (sl.arg 0x44).extractLsb' 0 8 = 1#8 then some .halt
  else none

/-- +0x48, bits 7:0: read limit. -/
def Slot.readLimit (sl : Slot) : Nat := ((sl.arg 0x48).extractLsb' 0 8).toNat

/-- +0x4C, bits 7:0: completion timeout in ms. -/
def Slot.timeout (sl : Slot) : Nat := ((sl.arg 0x4C).extractLsb' 0 8).toNat

/-- +0x50, bits 15:0: moderation threshold. -/
def Slot.threshold (sl : Slot) : Nat := ((sl.arg 0x50).extractLsb' 0 16).toNat

/-- +0x54, bits 15:0: moderation holdoff in 10 µs units. -/
def Slot.holdoff (sl : Slot) : Nat := ((sl.arg 0x54).extractLsb' 0 16).toNat

/-- Whether a presence set names field `n` (R179). -/
def names (presence : Word) (n : Nat) : Bool := presence.getLsbD n

/-- A presence set is faulty when it is empty or names anything above its `n` fields (R37, R82, R147). -/
def presenceFault (presence : Word) (n : Nat) : Bool :=
  presence == 0#32 || presence >>> n != 0#32

/-- The lease that a kind field and a period give, started at its full period; none for a fault (R22, R24, R37). The
period of a lease of kind NONE is neither tested nor kept. -/
def leaseOf (kind : BitVec 8) (period : BitVec 16) : Option Lease :=
  if kind = 0#8 then some .untimed
  else if period = 0#16 then none
  else if kind = 1#8 then some (.timed .absolute period (period.toNat * Config.unitsPerMs))
  else if kind = 2#8 then some (.timed .idle period (period.toNat * Config.unitsPerMs))
  else none

/-- The rights of a rights field; none when it is empty or names anything other than READ and WRITE (R22, R179). -/
def rightsOf (field : BitVec 8) : Option Rights :=
  if field = 0#8 ∨ field >>> 2 ≠ 0#8 then none else some (field.extractLsb' 0 2)

/-! ### Encodings of values (R177, R178) -/

def Handle.word (h : Handle) : Word := put 0 8 h.seq.toNat ||| put 8 6 h.index.val

def kindCode : AccessKind → Nat
  | .read => 0
  | .write => 1

def FaultPolicy.code : FaultPolicy → Nat
  | .carryOn => 0
  | .halt => 1

def RunState.code : RunState → Nat
  | .run => 0
  | .halted => 1

def Result.code : Result → Nat
  | .ok => 0
  | .malformed => 1
  | .halted => 2
  | .nogrant => 3
  | .closing => 4
  | .denied => 5
  | .hosterr => 6
  | .timeout => 7
  | .linkdown => 8

def CloseCause.code : CloseCause → Nat
  | .command => 1
  | .expired => 2

def SlotState.code : SlotState → Nat
  | .idle => 0
  | .pending => 1
  | .waiting => 2
  | .done => 3

def Status.code : Status → Nat
  | .none => 0
  | .ok => 1
  | .overtaken => 2
  | .cancelled => 3
  | .badop => 4
  | .badarg => 5
  | .overlap => 6
  | .full => 7
  | .stale => 8
  | .state => 9
  | .draining => 10
  | .limit => 11

/-- Lease kind: 0 NONE, 1 ABSOLUTE, 2 IDLE. -/
def Lease.code : Lease → Nat
  | .untimed => 0
  | .timed .absolute _ _ => 1
  | .timed .idle _ _ => 2

/-- Grant state: 1 OPEN, 2 DRAINING, 3 CLOSING (0 is FREE). -/
def Phase.code : Phase → Nat
  | .opened => 1
  | .draining _ => 2
  | .closing _ _ => 3

/-- The lease period of a timed lease, else 0 for absent (R180). -/
def Lease.periodField : Lease → Nat
  | .untimed => 0
  | .timed _ p _ => p.toNat

/-- A number of units of 10 µs in whole ms, rounded up (R55). -/
def ceilMs (units : Nat) : Nat :=
  (units + (Config.unitsPerMs - 1)) / Config.unitsPerMs

/-- The lower and the upper word of a host address (R178). -/
def lowWord (a : HostAddr) : Word := a.extractLsb' 0 32
def highWord (a : HostAddr) : Word := a.extractLsb' 32 32

/-! ### The result area (R180) -/

/-- A word of the result area: its offset, 0x80 to 0xFC, and what is written there. -/
abbrev ResultWord := Nat × Word

/-- Writes words into the result area; the others keep the 0 that submission left (R136, R180). -/
def writeResult (ws : List ResultWord) (area : Vector Word 32) : Vector Word 32 :=
  ws.foldl (fun a w => a.setIfInBounds ((w.1 - 0x80) / 4) w.2) area

def resultOpen (h : Handle) : List ResultWord := [(0x80, h.word)]

def resultModify (h : Handle) (gen : GenNo) : List ResultWord :=
  [(0x80, h.word), (0x8C, put 0 4 gen.toNat)]

def resultClose (h : Handle) (cause : CloseCause) : List ResultWord :=
  [(0x80, h.word), (0xAC, put 8 2 cause.code)]

def resultRenew (h : Handle) (l : Lease) : List ResultWord :=
  [(0x80, h.word), (0xAC, put 0 8 l.code), (0xB0, put 0 16 l.periodField)]

def resultFence (set : Set8) (tags entries : Nat) : List ResultWord :=
  [(0x80, put 0 8 set.toNat), (0x84, put 0 6 tags), (0x88, put 0 5 entries)]

def resultSetRequester (policy : FaultPolicy) (limit : Nat) : List ResultWord :=
  [(0x80, put 0 1 policy.code ||| put 8 4 limit)]

def resultResetRequester (detached : Nat) (discarded : Bool) : List ResultWord :=
  [(0x80, put 0 4 detached ||| flag 8 discarded)]

def resultSetTiming (t : Timing) : List ResultWord :=
  [(0x80, put 0 8 t.timeout ||| put 8 8 t.threshold ||| put 16 8 t.holdoff)]

/-- A LOOKUP that was refused: the outcome, and the handle where one is given (R27). -/
def resultLookupRefused (r : Result) (h : Option Handle) : List ResultWord :=
  [(0x80, match h with | some h => h.word | none => 0#32), (0x84, put 0 4 r.code ||| flag 8 h.isSome)]

/-- A LOOKUP that succeeded (R27). -/
def resultLookupOk (h : Handle) (gen : GenNo) (addr : HostAddr) : List ResultWord :=
  [(0x80, h.word), (0x84, put 0 4 Result.ok.code ||| flag 8 true), (0x88, put 0 4 gen.toNat),
   (0x8C, lowWord addr), (0x90, highWord addr)]

/-- The previous generation of a grant, when present (R1). -/
def Phase.prev : Phase → Option PrevGeneration
  | .opened => none
  | .draining p => some p
  | .closing _ p => p

/-- The close cause of a grant, when present (R1). -/
def Phase.cause : Phase → Option CloseCause
  | .closing c _ => some c
  | _ => none

/-- The remaining time in whole ms, rounded up (R55; of a stopped timer too: log entry 12), else 0 for absent. A running timer
is never reported as 0: one at 0 whose expiry has not been taken has less than a unit left (R55, R61). -/
def Grant.remainingMs (g : Grant) : Nat :=
  match g.lease with
  | .untimed => 0
  | .timed _ _ r => if g.phase.cause = none then max 1 (ceilMs r) else ceilMs r

/-- QUERY of a FREE record: index, sequence, state 0, presence 0 (R180). -/
def resultQueryFree (h : Handle) : List ResultWord := [(0x80, h.word)]

/-- QUERY in mode NEXT that finds no record: bit 31 alone (R180). -/
def resultQueryNone : List ResultWord := [(0x80, flag 31 true)]

/-- QUERY of a record that is not FREE (R26, R180). -/
def resultQueryGrant (h : Handle) (g : Grant) : List ResultWord :=
  let prev := g.phase.prev
  let cause := g.phase.cause
  [ (0x80, h.word ||| put 16 2 g.phase.code),
    (0x84, flag 0 true ||| flag 1 prev.isSome ||| flag 2 cause.isSome ||| flag 3 (g.lease.code != 0)
            ||| flag 4 g.waiting.isSome),
    (0x88, g.localBase.setWidth 32),
    (0x8C, put 0 4 g.cur.number.toNat ||| put 8 2 g.cur.rights.toNat ||| put 16 8 g.cur.clients.toNat),
    (0x90, BitVec.ofNat 32 g.cur.length),
    (0x94, lowWord g.cur.hostBase),
    (0x98, highWord g.cur.hostBase),
    (0x9C, put 0 6 g.cur.count
            ||| (match prev with | some p => put 8 6 p.count ||| put 16 4 p.number.toNat | none => 0#32)),
    (0xA0, match prev with | some p => BitVec.ofNat 32 p.length | none => 0#32),
    (0xA4, match prev with | some p => lowWord p.hostBase | none => 0#32),
    (0xA8, match prev with | some p => highWord p.hostBase | none => 0#32),
    (0xAC, put 0 8 g.lease.code ||| (match cause with | some c => put 8 2 c.code | none => 0#32)
            ||| (match g.waiting with | some k => put 16 2 k.val | none => 0#32)),
    (0xB0, put 0 16 g.lease.periodField ||| put 16 16 g.remainingMs),
    (0xB4, BitVec.ofNat 32 g.readCount),
    (0xB8, BitVec.ofNat 32 g.writeCount),
    (0xBC, g.tag) ]

def Access.kind : Access → AccessKind
  | .read _ _ _ => .read
  | .write _ _ _ => .write

def Access.addr : Access → LocalAddr
  | .read a _ _ => a
  | .write a _ _ => a

def Access.length : Access → Nat
  | .read _ n _ => n
  | .write _ n _ => n

/-- The label of a READ; a WRITE carries none (R65). -/
def Access.label : Access → Option Label
  | .read _ _ l => some l
  | .write _ _ _ => none

/-- The fault slot and the overflow count, as QUERY-REQUESTER and RESUME report them (R180). -/
def resultFault (p : Port) : List ResultWord :=
  match p.fault with
  | none => [(0x98, put 16 8 p.overflow)]
  | some f =>
    [ (0x8C, flag 0 true ||| put 4 4 f.result.code ||| put 8 1 (kindCode f.kind) ||| flag 9 f.label.isSome
              ||| (match f.label with | some l => put 12 3 l.toNat | none => 0#32)
              ||| flag 16 f.handle.isSome ||| flag 17 f.generation.isSome
              ||| (match f.generation with | some n => put 20 4 n.toNat | none => 0#32)),
      (0x90, f.addr.setWidth 32),
      (0x94, match f.handle with | some h => h.word | none => 0#32),
      (0x98, put 0 10 f.length ||| put 16 8 p.overflow) ]

/-- The head access, as QUERY-REQUESTER reports it (R180). -/
def resultHead (p : Port) : List ResultWord :=
  match p.head with
  | none => []
  | some a =>
    [ (0x84, flag 0 true ||| put 1 1 (kindCode a.kind)
              ||| (match a.label with | some l => put 4 3 l.toNat | none => 0#32) ||| put 16 10 a.length),
      (0x88, a.addr.setWidth 32) ]

/-- QUERY-REQUESTER: the whole state of a port (R83, R180). -/
def resultQueryRequester (p : Port) : List ResultWord :=
  (0x80, put 0 1 p.run.code ||| put 1 1 p.policy.code ||| put 8 4 p.readLimit ||| put 16 4 p.outstanding
          ||| put 24 8 p.labels.toNat)
    :: (resultHead p ++ resultFault p)

end Sys2Proof.Machine
end

