-- ==== Sys2Proof/Machine/Ops.lean ====
section
/-! DEFINITION. The operations that several commands share: over grant records, ports, tags, the write queue, slots
and snapshots; the lookup; fault capture; the fall of a count; retirement; and teardown. Each is one part of the
indivisible change that a command makes. -/

namespace Sys2Proof.Machine

/-! ### Updates of one element -/

def State.setRecord (i : GrantIdx) (r : Record) (s : State) : State :=
  { s with grants := s.grants.set i r }

/-- Replaces the grant held at an index; the sequence is kept. -/
def State.setGrant (i : GrantIdx) (g : Grant) (s : State) : State :=
  s.setRecord i { s.grants[i] with grant := some g }

def State.setPort (p : PortNo) (q : Port) (s : State) : State :=
  { s with ports := s.ports.set p q }

def State.setTag (t : TagNo) (e : TagEntry) (s : State) : State :=
  { s with tags := s.tags.set t e }

def State.setSlot (k : SlotNo) (sl : Slot) (s : State) : State :=
  { s with slots := s.slots.set k sl }

/-- Records an answer of a port (R66, R67). -/
def State.answer (p : PortNo) (a : Answer) (s : State) : State :=
  { s with answers := s.answers ++ [(p, a)] }

/-- A request joins the tail of the outbound list (R169). -/
def State.joinOutbound (r : Request) (s : State) : State :=
  { s with link := { s.link with outbound := s.link.outbound ++ [r] } }

/-! ### Slots -/

/-- A slot enters DONE with a status and sets its SLOT_DONE cause; a FENCE's snapshot goes with it (R127, R130, R145). -/
def State.endSlot (k : SlotNo) (st : Status) (s : State) : State :=
  (s.setSlot k { s.slots[k] with state := .done, status := st, snapshot := none }).setCauses (causeSlotDone k)

/-- A command writes its result at its execution (R136). -/
def State.writeResults (k : SlotNo) (ws : List ResultWord) (s : State) : State :=
  s.setSlot k { s.slots[k] with result := writeResult ws s.slots[k].result }

/-- A command that has done its work ends at its execution (R142). -/
def State.finish (k : SlotNo) (ws : List ResultWord) (s : State) : State :=
  (s.writeResults k ws).endSlot k .ok

/-- A command that must wait writes its result and leaves its slot WAITING (R136, R142). -/
def State.wait (k : SlotNo) (ws : List ResultWord) (s : State) : State :=
  s.setSlot k { s.slots[k] with result := writeResult ws s.slots[k].result, state := .waiting }

/-- A host write that a slot does not take (R139). -/
def State.collide (k : SlotNo) (s : State) : State :=
  (s.setSlot k { s.slots[k] with collided := true }).setCauses causeCollision

/-- A slot is busy while it is PENDING or WAITING (R133). -/
def Slot.busy (sl : Slot) : Bool :=
  sl.state == .pending || sl.state == .waiting

/-! ### Leases (chapter 3) -/

/-- The remaining time goes back to the full period (R55). -/
def Lease.restarted : Lease → Lease
  | .untimed => .untimed
  | .timed k p _ => .timed k p (p.toNat * Config.unitsPerMs)

/-- What a successful effective lookup does to a lease: an IDLE one restarts (R20). -/
def Lease.used : Lease → Lease
  | .timed .idle p _ => .timed .idle p (p.toNat * Config.unitsPerMs)
  | l => l

/-- A lease whose time has run out: the timer stops with remaining time 0 (R56). -/
def Lease.runOut : Lease → Lease
  | .untimed => .untimed
  | .timed k p _ => .timed k p 0

/-- A lease whose timer a CLOSE stops: the remaining time is kept, and is some value above 0. A timer at 0 whose expiry has not
been taken has less than a unit left (R54; log entry 12). -/
def Lease.stopped : Lease → Lease
  | .untimed => .untimed
  | .timed k p r => .timed k p (max 1 r)

/-- The remaining time of a lease in units of 10 µs; absent counts as none. -/
def Lease.remaining : Lease → Nat
  | .untimed => 0
  | .timed _ _ r => r

def Lease.isTimed : Lease → Bool
  | .untimed => false
  | .timed _ _ _ => true

/-! ### Grants -/

def Phase.isClosing : Phase → Bool
  | .closing _ _ => true
  | _ => false

/-- The grant's lease timer runs: kind ABSOLUTE or IDLE, in OPEN or DRAINING (R54). -/
def Grant.leaseRuns (g : Grant) : Bool :=
  g.lease.isTimed && !g.phase.isClosing

/-- Whether the local range of a grant contains a local address (R9). -/
def Grant.covers (g : Grant) (a : LocalAddr) : Bool :=
  decide (g.localBase.toNat ≤ a.toNat) && decide (a.toNat < g.localBase.toNat + g.cur.length)

/-- Two ranges overlap when each begins below the end of the other (R10). -/
def rangesOverlap (b1 l1 b2 l2 : Nat) : Bool :=
  decide (b1 < b2 + l2) && decide (b2 < b1 + l1)

/-- Whether a range overlaps the range of some grant not in FREE, other than the one at `except` (R10, R23, R38). -/
def State.overlaps (s : State) (except : Option GrantIdx) (base len : Nat) : Bool :=
  (List.finRange 64).any fun i =>
    match s.grants[i].grant with
    | some g => except != some i && rangesOverlap base len g.localBase.toNat g.cur.length
    | none => false

/-- The lowest-numbered FREE index (R24). -/
def State.lowestFree (s : State) : Option GrantIdx :=
  (List.finRange 64).find? fun i => s.grants[i].grant.isNone

/-- The sequence after a freeing: from 255 it goes to 1 (R5). -/
def nextSeq (q : Seq) : Seq :=
  if q = 255#8 then 1#8 else q + 1#8

/-- Ends the grant at an index, without a report (R5). -/
def Record.freed (r : Record) : Record :=
  { seq := nextSeq r.seq, grant := none }

/-- Ends the wait that a grant's waiting slot names, with a status (R49). The caller clears the field. -/
def State.report (w : Option SlotNo) (st : Status) (s : State) : State :=
  match w with
  | some k => s.endSlot k st
  | none => s

/-- Frees an index and reports OK for the CLOSE that waits, if any (R5, R49). -/
def State.freeGrant (i : GrantIdx) (s : State) : State :=
  match s.grants[i].grant with
  | some g => (s.setRecord i s.grants[i].freed).report g.waiting .ok
  | none => s

/-- The host address of a local address under a grant's current generation (R18). -/
def Grant.translate (g : Grant) (a : LocalAddr) : HostAddr :=
  g.cur.hostBase + (a - g.localBase).setWidth 64

/-- What a successful effective lookup does to the grant: the in-flight count and the access counter rise, an IDLE
lease restarts (R19, R20). -/
def Grant.counted (g : Grant) (k : AccessKind) : Grant :=
  { g with
    cur := { g.cur with count := g.cur.count + 1 }
    lease := g.lease.used
    readCount := if k = .read then min Config.maxAccessCount (g.readCount + 1) else g.readCount
    writeCount := if k = .write then min Config.maxAccessCount (g.writeCount + 1) else g.writeCount }

/-- Whether both in-flight counts of a grant are 0; an absent previous generation has none (R4). -/
def Grant.idleTraffic (g : Grant) : Bool :=
  g.cur.count == 0 && (match g.phase.prev with | some p => p.count == 0 | none => true)

/-- The grant that a handle names: not FREE, holding the sequence named; sequence 0 never matches (R8). -/
def State.byHandle (s : State) (h : Handle) : Option Grant :=
  if h.seq = 0#8 ∨ s.grants[h.index].seq ≠ h.seq then none else s.grants[h.index].grant

/-! ### The fall of an in-flight count (R30, R31) -/

/-- The current count falls; a CLOSING grant with no previous generation left is freed when it reaches 0 (R31). -/
def State.fallCurrent (i : GrantIdx) (g : Grant) (s : State) : State :=
  let g' := { g with cur := { g.cur with count := g.cur.count - 1 } }
  let s' := s.setGrant i g'
  if g'.phase.isClosing ∧ g'.cur.count = 0 ∧ g'.phase.prev = none then s'.freeGrant i else s'

/-- The previous count falls. At 0 the previous generation is removed: a DRAINING grant returns to OPEN and its MODIFY
ends OK (R42); a CLOSING one stays, or is freed when the current count is 0 (R31). -/
def State.fallPrevious (i : GrantIdx) (g : Grant) (p : PrevGeneration) (s : State) : State :=
  let p' := { p with count := p.count - 1 }
  match g.phase with
  | .opened => s
  | .draining _ =>
    if p'.count = 0 then
      (s.setGrant i { g with phase := .opened, waiting := none }).report g.waiting .ok
    else s.setGrant i { g with phase := .draining p' }
  | .closing c _ =>
    if p'.count = 0 then
      let s' := s.setGrant i { g with phase := .closing c none }
      if g.cur.count = 0 then s'.freeGrant i else s'
    else s.setGrant i { g with phase := .closing c (some p') }

/-- A fall of the count of a named generation of a named grant (R30): the two numbers of one grant differ (R33). -/
def State.fall (i : GrantIdx) (n : GenNo) (s : State) : State :=
  match s.grants[i].grant with
  | none => s
  | some g =>
    if g.cur.number = n then s.fallCurrent i g
    else
      match g.phase.prev with
      | some p => if p.number = n then s.fallPrevious i g p else s
      | none => s

/-! ### The lookup (R11 to R18) -/

/-- What a lookup gives: a refusal with its result and handle, or the grant, generation and host address (R12, R18). -/
inductive Lookup where
  | refuse (result : Result) (handle : Option Handle)
  | pass (index : GrantIdx) (gen : GenNo) (addr : HostAddr)
  deriving DecidableEq, Repr

/-- The grant whose range contains a local address: at most one does (R15). -/
def State.grantAt (s : State) (a : LocalAddr) : Option (GrantIdx × Grant) :=
  (List.finRange 64).findSome? fun i =>
    match s.grants[i].grant with
    | some g => if g.covers a then some (i, g) else none
    | none => none

/-- Checks 3 to 5 and the translation (R12, R15 to R18). -/
def State.lookupGrant (s : State) (p : PortNo) (k : AccessKind) (a : LocalAddr) : Lookup :=
  match s.grantAt a with
  | none => .refuse .nogrant none
  | some (i, g) =>
    let h : Handle := { index := i, seq := s.grants[i].seq }
    if g.phase.isClosing then .refuse .closing (some h)
    else if g.cur.clients.getLsbD p.val && g.cur.rights.getLsbD (kindCode k) then
      .pass i g.cur.number (g.translate a)
    else .refuse .denied (some h)

/-- Whether an access crosses a 4 KiB boundary of local address (R13). -/
def crossesPage (a : LocalAddr) (len : Nat) : Bool :=
  a.toNat / Config.pageBytes != (a.toNat + len - 1) / Config.pageBytes

/-- Check 2 (R12, R13): the length, the page, and for a read the label. -/
def Port.malformed (q : Port) (a : Access) : Bool :=
  a.length == 0 || decide (Config.maxAccessBytes < a.length) || crossesPage a.addr a.length
    || (match a.label with | some l => q.labels.getLsbD l.toNat | none => false)

/-- A lookup of an access with all five checks (R12): a probe, or an effective lookup before its effects (R11). -/
def State.lookupAccess (s : State) (p : PortNo) (a : Access) : Lookup :=
  if s.ports[p].run = .halted then .refuse .halted none
  else if s.ports[p].malformed a then .refuse .malformed none
  else s.lookupGrant p a.kind a.addr

/-! ### Ports: fault capture and refusal at the head -/

/-- What capturing a fault does to a port (R76, R78, R79): stored in an empty slot, else counted; HALT halts. -/
def Port.captured (q : Port) (f : FaultRecord) : Port :=
  { q with
    run := if q.policy = .halt then .halted else q.run
    fault := if q.fault.isSome then q.fault else some f
    overflow := if q.fault.isSome then min Config.maxSmallCount (q.overflow + 1) else q.overflow }

/-- A fault reaches the fault slot of a requester (R75); a stored one sets REQ_FAULT, a counted one nothing (R76, R78). -/
def State.capture (p : PortNo) (f : FaultRecord) (s : State) : State :=
  let s' := s.setPort p (s.ports[p].captured f)
  if s.ports[p].fault.isSome then s' else s'.setCauses (causeReqFault p)

/-- The answer to an access refused at the head (R66, R67, R70). -/
def Access.refusalAnswer (a : Access) (r : Result) : Answer :=
  match a with
  | .read _ _ l => .readEnd l r true
  | .write _ _ _ => .writeAnswer r

/-- The fault record of a refusal: every field from the head access as presented (R76). -/
def refusalRecord (a : Access) (r : Result) (h : Option Handle) : FaultRecord :=
  { result := r, kind := a.kind, addr := a.addr, length := a.length, label := a.label, handle := h,
    generation := none }

/-- A port refuses its head access: it answers, the head becomes absent, and the refusal is captured unless it is
HALTED (R70, R71, R75). -/
def State.refuseHead (p : PortNo) (a : Access) (r : Result) (h : Option Handle) (s : State) : State :=
  let s' := (s.setPort p { s.ports[p] with head := none }).answer p (a.refusalAnswer r)
  if r = .halted then s' else s'.capture p (refusalRecord a r h)

/-! ### Arbiters (R96, R116) -/

/-- The ports in the order an arbiter looks at them: from the one after its last-granted port, wrapping from 7 to 0. -/
def portsAfter (last : PortNo) : List PortNo :=
  (List.finRange 8).map fun k => last + 1 + k

/-! ### Snapshots (R126, R127) -/

def Snapshot.isEmpty (sn : Snapshot) : Bool :=
  sn.tags == 0#32 && sn.entries == 0#16

/-- A snapshot of a slot after a departure: kept while it has members, else the FENCE ends OK (R127). -/
def State.keepSnapshot (k : SlotNo) (sn : Snapshot) (s : State) : State :=
  if sn.isEmpty then s.endSlot k .ok else s.setSlot k { s.slots[k] with snapshot := some sn }

/-- A retired tag leaves the snapshot of one slot, if it is a member (R126). -/
def State.tagLeavesSlot (t : TagNo) (s : State) (k : SlotNo) : State :=
  match s.slots[k].snapshot with
  | none => s
  | some sn =>
    if sn.tags.getLsbD t.val then s.keepSnapshot k { sn with tags := sn.tags &&& ~~~ (single t.val) } else s

/-- A retired tag leaves every snapshot that holds it (R126). -/
def State.tagLeaves (t : TagNo) (s : State) : State :=
  (List.finRange 4).foldl (State.tagLeavesSlot t) s

/-- The head entry leaves the snapshot of one slot; the entries behind it move up one place (R126). -/
def State.entryLeavesSlot (s : State) (k : SlotNo) : State :=
  match s.slots[k].snapshot with
  | none => s
  | some sn =>
    let sn' := { sn with entries := sn.entries >>> 1 }
    if sn.entries.getLsbD 0 then s.keepSnapshot k sn' else s.setSlot k { s.slots[k] with snapshot := some sn' }

/-- The head entry of the write queue leaves every snapshot that holds it (R126). -/
def State.entryLeaves (s : State) : State :=
  (List.finRange 4).foldl State.entryLeavesSlot s

/-! ### The read unit (R77, R103) -/

/-- The lowest-numbered FREE tag (R98). -/
def State.lowestFreeTag (s : State) : Option TagNo :=
  (List.finRange 32).find? fun t => s.tags[t] == .free

/-- The host base of the generation of a grant that has a given number (R77). -/
def Grant.hostBaseOf (g : Grant) (n : GenNo) : HostAddr :=
  if g.cur.number = n then g.cur.hostBase
  else
    match g.phase.prev with
    | some p => p.hostBase
    | none => g.cur.hostBase

/-- The local address of a read, recovered from its host address (R77). -/
def Grant.localAddrOf (g : Grant) (r : ReadInfo) : LocalAddr :=
  g.localBase + (r.hostAddr - g.hostBaseOf r.gen).setWidth 30

/-- The fault record of a read that ends HOSTERR or TIMEOUT, its values taken before the count falls (R76, R77). A tag's
grant is never FREE (R28); the record of one that is has address 0 (log entry 11). -/
def State.readRecord (s : State) (r : ReadInfo) (res : Result) : FaultRecord :=
  { result := res, kind := .read
    addr := match s.grants[r.index].grant with | some g => g.localAddrOf r | none => 0#30
    length := r.length, label := some r.label
    handle := some { index := r.index, seq := s.grants[r.index].seq }
    generation := some r.gen }

/-- The port's share of a retirement: the read end, the fault for HOSTERR and TIMEOUT, the outstanding count and the
label; nothing for a detached read (R69, R73, R86, R103). -/
def State.endRead (r : ReadInfo) (res : Result) (s : State) : State :=
  if r.detached then s
  else
    let q := s.ports[r.requester]
    let q' := { q with outstanding := q.outstanding - 1, labels := q.labels &&& ~~~ (single r.label.toNat) }
    let s' := (s.setPort r.requester q').answer r.requester (.readEnd r.label res false)
    if res = .ok then s' else s'.capture r.requester (s.readRecord r res)

/-- An unsent memory read of a tag is withdrawn from the outbound list (R103, R170). -/
def State.withdraw (t : TagNo) (s : State) : State :=
  { s with link := { s.link with outbound := s.link.outbound.filter fun m =>
      match m with | .memRead t' _ _ => t' != t | _ => true } }

/-- Retirement of a WAITING tag with OK, HOSTERR or TIMEOUT; the entry becomes `next` (R103). -/
def State.retire (t : TagNo) (r : ReadInfo) (res : Result) (next : TagEntry) (s : State) : State :=
  ((((s.endRead r res).fall r.index r.gen).tagLeaves t).setTag t next).withdraw t

/-- The head access of a port is eligible for the tag allocator (R94): a condition of the state, not a stored flag. -/
def State.readEligible (s : State) (p : PortNo) : Bool :=
  (match s.ports[p].head with | some (.read _ _ _) => true | _ => false)
    && decide (s.ports[p].outstanding < s.ports[p].readLimit)
    && s.queue.all (fun e => e.requester != p)
    && s.lowestFreeTag.isSome

/-! ### Detachment (R85 to R87) -/

/-- The tag is a WAITING one of the requester that is not detached. -/
def TagEntry.liveFor (p : PortNo) : TagEntry → Bool
  | .waiting r _ _ => r.requester == p && !r.detached
  | _ => false

/-- A WAITING tag of the requester becomes detached; every other entry is kept (R86). -/
def TagEntry.detachFor (p : PortNo) : TagEntry → TagEntry
  | .waiting r i t => .waiting (if r.requester = p then { r with detached := true } else r) i t
  | e => e

/-- How many tags of a requester are WAITING and not detached (R73, R85). -/
def State.liveTags (s : State) (p : PortNo) : Nat :=
  s.tags.toList.countP (TagEntry.liveFor p)

/-- A port after RESET-REQUESTER or LRST: policy and read limit are kept (R85). -/
def Port.cleaned (q : Port) : Port :=
  { q with run := .run, outstanding := 0, labels := 0#8, head := none, fault := none, overflow := 0 }

/-- What RESET-REQUESTER does to one requester (R85), and LRST to each (R87). -/
def State.cleanRequester (s : State) (p : PortNo) : State :=
  { s with
    tags := Vector.ofFn fun t : TagNo => s.tags[t].detachFor p
    ports := s.ports.set p s.ports[p].cleaned }

/-! ### Teardown (R166) -/

/-- A record at teardown: freed with its sequence advanced unless it is FREE already (R2, R51). -/
def Record.tornDown (r : Record) : Record :=
  if r.grant.isSome then r.freed else r

/-- The labels of a requester's WAITING, not detached tags: each gets a LINKDOWN end at teardown (R111). -/
def State.linkdownLabels (s : State) (p : PortNo) : Set8 :=
  maskOf 8 fun l =>
    s.tags.toList.any fun e =>
      match e with
      | .waiting r _ _ => r.requester == p && !r.detached && r.label.toNat == l
      | _ => false

/-- The answers of a teardown: the LINKDOWN ends of each requester that has any (R89, R111). -/
def State.linkdownAnswers (s : State) : List (PortNo × Answer) :=
  (List.finRange 8).filterMap fun p =>
    if s.linkdownLabels p = 0#8 then none else some (p, .linkdownEnds (s.linkdownLabels p))

/-- A teardown: one change across the part (R166). The link state and the credit are the cause's own (R165, R168). -/
def State.teardown (s : State) : State :=
  { s with
    grants := Vector.ofFn fun i : GrantIdx => s.grants[i].tornDown
    expired := 0#64
    ports := Vector.replicate 8 Port.initial
    tags := Vector.replicate 32 TagEntry.free
    tagLast := 7
    queue := []
    writeLast := 7
    slots := Vector.replicate 4 Slot.initial
    order := []
    timing := Timing.initial
    notice := Notice.initial
    link := { s.link with outbound := [], messaging := false }
    answers := s.answers ++ s.linkdownAnswers }

/-- The link leaves UP: DOWN, a teardown, and both credit amounts 0 (R165, R168). -/
def State.leaveUp (s : State) : State :=
  let t := s.teardown
  { t with link := { t.link with up := false, postedCredit := 0, readCredit := 0 } }

/-! ### The shape of a command's answer -/

/-- A command's change, with the moderation of the events it made (R157). -/
def answerNext (before after : State) : Host.Outcome State Fault Refusal :=
  .next (moderate before after)

/-- A host access that reaches the window only while the link is UP (R165, R167); otherwise nothing changes. -/
def hostAccess (f : State → State) (s : State) : Host.Outcome State Fault Refusal :=
  if s.link.up then answerNext s (f s) else .next s

/-- The engine executes the command of the slot at the front of the submission order, when its opcode is the row's: the
slot leaves the order and the command is one change (R141). A row that is not the next execution changes nothing
(log entry 2). -/
def engine (isRow : BitVec 16 → Bool) (cmd : SlotNo → State → State) (s : State) : Host.Outcome State Fault Refusal :=
  match s.order with
  | [] => .next s
  | k :: rest => if isRow s.slots[k].opcode then answerNext s (cmd k { s with order := rest }) else .next s

end Sys2Proof.Machine
end

