-- ==== Sys2Proof/Machine/Card.lean ====
section
/-! DEFINITION. The card side: LRST, accesses presented at the ports, the tag allocator, the write arbiter and the
leaving of a write (chapters 4 to 6). -/

namespace Sys2Proof.Machine

/-! ### LRST -/

/-- LRST_ASSERTION: does to every requester what RESET-REQUESTER does; grants, the queue, snapshots, slots and the
notice unit are not changed (R87). -/
def execLrstAssertion (s : State) : Host.Outcome State Fault Refusal :=
  .next { (List.finRange 8).foldl State.cleanRequester s with lrst := true }

/-- LRST_DEASSERTION: each port takes the next access its requester presents (R88). -/
def execLrstDeassertion (s : State) : Host.Outcome State Fault Refusal :=
  .next { s with lrst := false }

/-! ### The head of a port -/

/-- The access a port reads from its interface (R65, R181): no label for a WRITE, no data for a READ. -/
def Presented.access (a : Presented) : Access :=
  match a.kind with
  | .read => .read a.addr (lengthField a.length) a.label
  | .write => .write a.addr (lengthField a.length) a.data

/-- A new head access is probed: a refusal is answered at once, a pass leaves it a candidate (R70). -/
def State.probeHead (p : PortNo) (a : Access) (s : State) : State :=
  match s.lookupAccess p a with
  | .refuse r h => s.refuseHead p a r h
  | .pass _ _ _ => s

/-- PRESENT_ACCESS: the access becomes the head access and is probed (R65, R70). The port does not see it while a head
access is present, nor takes anything while LRST is asserted (R65, R88; log entry 13). -/
def execPresentAccess (port : PortNo) (access : Presented) (s : State) : Host.Outcome State Fault Refusal :=
  if s.lrst ∨ s.ports[port].head.isSome then .next s
  else
    let a := Presented.access access
    answerNext s ((s.setPort port { s.ports[port] with head := some a }).probeHead port a)

/-! ### The tag allocator -/

/-- A read is issued into a tag (R98), with the lookup's effects on its grant (R19, R20, R29). -/
def State.issueRead (p : PortNo) (t : TagNo) (len : Nat) (label : Label) (i : GrantIdx) (g : Grant) (n : GenNo)
    (host : HostAddr) (s : State) : State :=
  let q := s.ports[p]
  let r : ReadInfo :=
    { requester := p, label := label, detached := false, index := i, gen := n, hostAddr := host, length := len,
      received := 0 }
  let q' := { q with
    head := none, outstanding := q.outstanding + 1, labels := q.labels ||| single label.toNat }
  ((((s.setGrant i (g.counted .read)).setTag t
      (.waiting r s.timing.timeout (s.timing.timeout * Config.unitsPerMs))).setPort p q').answer p
        (.readTaken label)).joinOutbound (.memRead t host len)

/-- The effective lookup of a granted head read (R97). -/
def State.grantRead (p : PortNo) (t : TagNo) (addr : LocalAddr) (len : Nat) (label : Label) (s : State) : State :=
  match s.lookupAccess p (.read addr len label) with
  | .refuse r h => s.refuseHead p (.read addr len label) r h
  | .pass i n host =>
    match s.grants[i].grant with
    | some g => s.issueRead p t len label i g n host
    | none => s

/-- One grant of the tag allocator, a change of its own: to the first port, after its last-granted one, whose head read is
eligible (R96). With no eligible head read there is no grant. -/
def State.tagGrant (s : State) : State :=
  match (portsAfter s.tagLast).find? s.readEligible with
  | none => s
  | some p =>
    match s.ports[p].head, s.lowestFreeTag with
    | some (.read addr len label), some t => moderate s ({ s with tagLast := p }.grantRead p t addr len label)
    | _, _ => s

/-- TAG_GRANT: the allocator grants one port (R96). -/
def execTagGrant (s : State) : Host.Outcome State Fault Refusal :=
  .next s.tagGrant

/-! ### The write arbiter -/

/-- The head access of a port is eligible for the write arbiter (R115). -/
def State.writeEligible (s : State) (p : PortNo) : Bool :=
  (match s.ports[p].head with | some (.write _ _ _) => true | _ => false)
    && decide (s.queue.length < Config.queuePlaces)

/-- A write is accepted: it joins the tail of the queue and is answered OK, with the lookup's effects on its grant
(R19, R20, R117). -/
def State.acceptWrite (p : PortNo) (len : Nat) (data : List Byte) (i : GrantIdx) (g : Grant) (n : GenNo)
    (host : HostAddr) (s : State) : State :=
  let e : QueueEntry := { requester := p, index := i, gen := n, hostAddr := host, length := len, data := data }
  let s' := ((s.setGrant i (g.counted .write)).setPort p { s.ports[p] with head := none }).answer p (.writeAnswer .ok)
  { s' with queue := s'.queue ++ [e] }

/-- The effective lookup of a granted head write (R117). -/
def State.grantWrite (p : PortNo) (addr : LocalAddr) (len : Nat) (data : List Byte) (s : State) : State :=
  match s.lookupAccess p (.write addr len data) with
  | .refuse r h => s.refuseHead p (.write addr len data) r h
  | .pass i n host =>
    match s.grants[i].grant with
    | some g => s.acceptWrite p len data i g n host
    | none => s

/-- WRITE_GRANT: the arbiter grants the first port, after its last-granted one, whose head write is eligible (R116). With
no eligible head write there is no grant. -/
def execWriteGrant (s : State) : Host.Outcome State Fault Refusal :=
  match (portsAfter s.writeLast).find? s.writeEligible with
  | none => .next s
  | some p =>
    match s.ports[p].head with
    | some (.write addr len data) => answerNext s ({ s with writeLast := p }.grantWrite p addr len data)
    | _ => .next s

/-! ### The leaving of a write -/

/-- WRITE_LEAVING: the head entry leaves when the link is UP and the credit for it is held: its memory write is sent in
the same change, its count falls, and it leaves every snapshot (R118, R169, R171). Else it stays. -/
def execWriteLeaving (s : State) : Host.Outcome State Fault Refusal :=
  match s.queue with
  | [] => .next s
  | e :: rest =>
    if s.link.up ∧ Config.writeCredit e.length ≤ s.link.postedCredit then
      let s' := { s with
        queue := rest
        link := { s.link with postedCredit := s.link.postedCredit - Config.writeCredit e.length }
        sent := s.sent ++ [Request.memWrite e.hostAddr e.length e.data] }
      answerNext s ((s'.fall e.index e.gen).entryLeaves)
    else .next s

end Sys2Proof.Machine
end

