-- ==== Sys2Proof/Machine/Engine.lean ====
section
/-! DEFINITION. The other commands of the engine: FENCE, the four requester commands, SET-TIMING and an opcode that
names no command (chapters 4, 7 and 8). -/

namespace Sys2Proof.Machine

/-! ### FENCE -/

/-- The snapshot of a requester set (R125): its WAITING tags, detached or not, and its write-queue entries. -/
def State.snapshotOf (s : State) (set : Set8) : Snapshot :=
  { tags := maskOf 32 fun t =>
      match s.tags[t]? with
      | some (.waiting r _ _) => set.getLsbD r.requester.val
      | _ => false
    entries := maskOf 16 fun n =>
      match s.queue[n]? with
      | some e => set.getLsbD e.requester.val
      | none => false }

/-- FENCE in a slot (R124): BADARG for an empty set; OK at once with no members; else the slot waits with its snapshot. -/
def cmdFence (k : SlotNo) (s : State) : State :=
  let set := s.slots[k].requesters
  if set = 0#8 then s.endSlot k .badarg
  else
    let sn := s.snapshotOf set
    let ws := resultFence set (members sn.tags) (members sn.entries)
    if sn.isEmpty then s.finish k ws
    else
      let s' := s.wait k ws
      s'.setSlot k { s'.slots[k] with snapshot := some sn }

/-- FENCE (R124, R141). -/
def execFence (s : State) : Host.Outcome State Fault Refusal :=
  engine (· == 0x0007#16) cmdFence s

/-! ### The requester commands -/

/-- Checks 1 to 3 of SET-REQUESTER: the presence set, a supplied policy, a supplied read limit (R82). -/
def Slot.requesterFault (sl : Slot) : Bool :=
  presenceFault sl.presence 2 || (names sl.presence 0 && sl.policy == none)
    || (names sl.presence 1 && (sl.readLimit == 0 || decide (Config.maxReadLimit < sl.readLimit)))

/-- SET-REQUESTER in a slot: the checks of R82 in order, then every supplied value together. -/
def cmdSetRequester (k : SlotNo) (s : State) : State :=
  let sl := s.slots[k]
  let q := s.ports[sl.requester]
  if sl.requesterFault then s.endSlot k .badarg
  else if names sl.presence 1 ∧ sl.readLimit < q.outstanding then s.endSlot k .limit
  else
    let policy := if names sl.presence 0 then sl.policy.getD q.policy else q.policy
    let limit := if names sl.presence 1 then sl.readLimit else q.readLimit
    (s.setPort sl.requester { q with policy := policy, readLimit := limit }).finish k
      (resultSetRequester policy limit)

/-- The slot holds a SET-REQUESTER that sets the read limit of its requester to the outstanding count, and the head read of that
requester is eligible. Such a limit applies only to reads not yet eligible (R95). -/
def State.limitMeetsEligible (s : State) (k : SlotNo) : Bool :=
  let sl := s.slots[k]
  sl.opcode == 0x0008#16 && !sl.requesterFault && names sl.presence 1
    && sl.readLimit == s.ports[sl.requester].outstanding && s.readEligible sl.requester

/-- The grants of the tag allocator that come before the SET-REQUESTER in a slot: as R96 has them due, one after another, until
the eligible read that the new limit does not apply to has had its grant (R95, R96; log entry 21). Each grant takes one of the
eight head accesses away, so that eight grants are enough. -/
def State.grantsBefore (k : SlotNo) : Nat → State → State
  | 0, s => s
  | n + 1, s => if s.limitMeetsEligible k then State.grantsBefore k n s.tagGrant else s

/-- SET-REQUESTER (R82, R141). It cannot make an eligible port ineligible (R95): the grant of a read that is eligible already is
taken before the execution, as R141 lets a lookup be (log entry 21). -/
def execSetRequester (s : State) : Host.Outcome State Fault Refusal :=
  engine (· == 0x0008#16) cmdSetRequester
    (match s.order with
      | [] => s
      | k :: _ => s.grantsBefore k 8)

/-- QUERY-REQUESTER in a slot (R83). -/
def cmdQueryRequester (k : SlotNo) (s : State) : State :=
  s.finish k (resultQueryRequester s.ports[s.slots[k].requester])

/-- QUERY-REQUESTER (R83, R141). -/
def execQueryRequester (s : State) : Host.Outcome State Fault Refusal :=
  engine (· == 0x0009#16) cmdQueryRequester s

/-- RESUME in a slot: the fault slot empty, the overflow count 0, the requester RUN; the result is what stood before
(R84). -/
def cmdResume (k : SlotNo) (s : State) : State :=
  let p := s.slots[k].requester
  (s.setPort p { s.ports[p] with run := .run, fault := none, overflow := 0 }).finish k (resultFault s.ports[p])

/-- RESUME (R84, R141). -/
def execResume (s : State) : Host.Outcome State Fault Refusal :=
  engine (· == 0x000A#16) cmdResume s

/-- RESET-REQUESTER in a slot (R85). -/
def cmdResetRequester (k : SlotNo) (s : State) : State :=
  let p := s.slots[k].requester
  (s.cleanRequester p).finish k (resultResetRequester (s.liveTags p) s.ports[p].head.isSome)

/-- RESET-REQUESTER (R85, R141). -/
def execResetRequester (s : State) : Host.Outcome State Fault Refusal :=
  engine (· == 0x000B#16) cmdResetRequester s

/-! ### SET-TIMING -/

/-- The timing parameters after a SET-TIMING; none for a faulty argument (R147). -/
def Slot.nextTiming (sl : Slot) (t : Timing) : Option Timing :=
  if presenceFault sl.presence 3
      ∨ (names sl.presence 0 ∧ (sl.timeout = 0 ∨ Config.maxTimeoutMs < sl.timeout))
      ∨ (names sl.presence 1 ∧ (sl.threshold = 0 ∨ Config.maxSmallCount < sl.threshold))
      ∨ (names sl.presence 2 ∧ Config.maxSmallCount < sl.holdoff) then none
  else some
    { timeout := if names sl.presence 0 then sl.timeout else t.timeout
      threshold := if names sl.presence 1 then sl.threshold else t.threshold
      holdoff := if names sl.presence 2 then sl.holdoff else t.holdoff }

/-- SET-TIMING in a slot (R147). The send attempt of R148 is made by `moderate`. -/
def cmdSetTiming (k : SlotNo) (s : State) : State :=
  match s.slots[k].nextTiming s.timing with
  | none => s.endSlot k .badarg
  | some t => { s with timing := t }.finish k (resultSetTiming t)

/-- SET-TIMING (R147, R148, R141). -/
def execSetTiming (s : State) : Host.Outcome State Fault Refusal :=
  engine (· == 0x000C#16) cmdSetTiming s

/-! ### BADOP -/

/-- An opcode that names none of the twelve commands; the CANCEL code is never an opcode (R143, R177). -/
def namesNoCommand (op : BitVec 16) : Bool :=
  (op == 0#16 || decide (12 < op.toNat)) && op != Config.cancelCode

/-- A slot whose opcode names no command ends with BADOP, and nothing else changes (R143). -/
def cmdBadop (k : SlotNo) (s : State) : State :=
  s.endSlot k .badop

/-- BADOP (R143, R141). -/
def execBadop (s : State) : Host.Outcome State Fault Refusal :=
  engine namesNoCommand cmdBadop s

end Sys2Proof.Machine
end

