-- ==== Sys2Proof/Machine/Grants.lean ====
section
/-! DEFINITION. The commands of the grant table: OPEN, MODIFY, CLOSE, RENEW, QUERY and LOOKUP (chapters 1 to 3). -/

namespace Sys2Proof.Machine

/-! ### OPEN -/

/-- Whether a length is a legal one: a multiple of 4096 from 4 KiB to 256 MiB (R22, R37). -/
def lengthLegal (len : Nat) : Bool :=
  len % Config.pageBytes == 0 && decide (Config.pageBytes ≤ len) && decide (len ≤ Config.maxGrantBytes)

/-- The grant that OPEN's arguments describe; none when any is out of range (R22, R24). -/
def Slot.openedGrant (sl : Slot) : Option Grant :=
  if sl.localAddr.toNat % Config.pageBytes = 0 ∧ lengthLegal sl.length
      ∧ sl.localAddr.toNat + sl.length ≤ Config.apertureEnd
      ∧ sl.hostBase.toNat % Config.pageBytes = 0 ∧ sl.hostBase.toNat + sl.length ≤ Config.hostEnd
      ∧ sl.clients ≠ 0#8 then
    match rightsOf sl.rightsField, leaseOf sl.leaseKind sl.period with
    | some rights, some lease => some
      { phase := .opened
        localBase := sl.localAddr
        cur :=
          { number := 0#4, length := sl.length, hostBase := sl.hostBase, rights := rights, clients := sl.clients,
            count := 0 }
        lease := lease
        waiting := none
        readCount := 0
        writeCount := 0
        tag := sl.hostTag }
    | _, _ => none
  else none

/-- OPEN in a slot: argument checks, overlap, a FREE index, then the grant (R22 to R24). -/
def cmdOpen (k : SlotNo) (s : State) : State :=
  match s.slots[k].openedGrant with
  | none => s.endSlot k .badarg
  | some g =>
    if s.overlaps none g.localBase.toNat g.cur.length then s.endSlot k .overlap
    else
      match s.lowestFree with
      | none => s.endSlot k .full
      | some i => (s.setGrant i g).finish k (resultOpen { index := i, seq := s.grants[i].seq })

/-- OPEN (R22 to R24, R141). -/
def execOpenGrant (s : State) : Host.Outcome State Fault Refusal :=
  engine (· == 0x0001#16) cmdOpen s

/-! ### MODIFY -/

/-- Whether a presence set names a mapping field: host base, length, rights or client set (R35, R179). -/
def namesMapping (presence : Word) : Bool :=
  names presence 0 || names presence 1 || names presence 2 || names presence 3

/-- The mapping of the new generation: each field as supplied, else as in the current generation (R40). The number is the
next one, wrapping (R33), the count 0. None for a faulty supplied field (R37). -/
def Slot.nextGeneration (sl : Slot) (g : Grant) : Option Generation :=
  let len := if names sl.presence 1 then sl.length else g.cur.length
  let base := if names sl.presence 0 then sl.hostBase else g.cur.hostBase
  let clients := if names sl.presence 3 then sl.clients else g.cur.clients
  let rights := if names sl.presence 2 then rightsOf sl.rightsField else some g.cur.rights
  let faulty :=
    (names sl.presence 0 && base.toNat % Config.pageBytes != 0)
      || (names sl.presence 1
          && (!lengthLegal len || decide (Config.apertureEnd < g.localBase.toNat + len)))
      || decide (Config.hostEnd < base.toNat + len)
      || (names sl.presence 3 && clients == 0#8)
  match rights with
  | none => none
  | some r =>
    if faulty then none
    else some
      { number := g.cur.number + 1#4, length := len, hostBase := base, rights := r, clients := clients, count := 0 }

/-- The lease after a MODIFY: as supplied and started, else kept; none for a faulty one (R37, R39). -/
def Slot.nextLease (sl : Slot) (g : Grant) : Option Lease :=
  if names sl.presence 4 then leaseOf sl.leaseKind sl.period else some g.lease

/-- The host's tag after a MODIFY (R39). -/
def Slot.nextTag (sl : Slot) (g : Grant) : Word :=
  if names sl.presence 5 then sl.hostTag else g.tag

/-- A mapping MODIFY that passed its checks: it ends at once with no traffic in flight, else the grant drains and the slot
waits (R40, R41). -/
def State.remap (k : SlotNo) (h : Handle) (g : Grant) (s : State) : State :=
  match s.slots[k].nextGeneration g, s.slots[k].nextLease g with
  | some n, some l =>
    let g' := { g with cur := n, lease := l, tag := s.slots[k].nextTag g }
    let old : PrevGeneration :=
      { number := g.cur.number, length := g.cur.length, hostBase := g.cur.hostBase, count := g.cur.count }
    if g.cur.count = 0 then (s.setGrant h.index g').finish k (resultModify h n.number)
    else
      (s.setGrant h.index { g' with phase := .draining old, waiting := some k }).wait k (resultModify h n.number)
  | _, _ => s.endSlot k .badarg

/-- A lease-or-tag MODIFY that passed its checks (R39). -/
def State.relabel (k : SlotNo) (h : Handle) (g : Grant) (s : State) : State :=
  match s.slots[k].nextLease g with
  | none => s.endSlot k .badarg
  | some l =>
    (s.setGrant h.index { g with lease := l, tag := s.slots[k].nextTag g }).finish k (resultModify h g.cur.number)

/-- Check 4 of a MODIFY: no argument is faulty (R37). The mapping is tested only when a mapping field is supplied. -/
def Slot.modifyArgsGood (sl : Slot) (g : Grant) : Bool :=
  !presenceFault sl.presence 6 && (sl.nextLease g).isSome
    && (!namesMapping sl.presence || (sl.nextGeneration g).isSome)

/-- MODIFY in a slot: the checks of R36 in order, then R39, R40 or R41. -/
def cmdModify (k : SlotNo) (s : State) : State :=
  let sl := s.slots[k]
  match s.byHandle sl.handle with
  | none => s.endSlot k .stale
  | some g =>
    if g.phase.isClosing then s.endSlot k .state
    else if g.phase.prev.isSome ∧ namesMapping sl.presence then s.endSlot k .draining
    else if !sl.modifyArgsGood g then s.endSlot k .badarg
    else if names sl.presence 1 ∧ s.overlaps (some sl.handle.index) g.localBase.toNat sl.length then
      s.endSlot k .overlap
    else if namesMapping sl.presence then s.remap k sl.handle g
    else s.relabel k sl.handle g

/-- MODIFY (R35 to R43, R141). -/
def execModify (s : State) : Host.Outcome State Fault Refusal :=
  engine (· == 0x0002#16) cmdModify s

/-! ### CLOSE -/

/-- The grant as a CLOSE leaves it in CLOSING: cause COMMAND, the previous generation kept, the lease's timer stopped (R4,
R45, R54). -/
def Grant.closed (g : Grant) : Grant :=
  { g with phase := .closing .command g.phase.prev, lease := g.lease.stopped, waiting := none }

/-- A CLOSE of a grant in OPEN or DRAINING: a waiting MODIFY is overtaken; with no traffic the grant is freed at once, else
the slot waits (R45, R46). -/
def State.beginClose (k : SlotNo) (h : Handle) (g : Grant) (s : State) : State :=
  let s1 := (s.setGrant h.index g.closed).report g.waiting .overtaken
  if g.closed.idleTraffic then (s1.freeGrant h.index).finish k (resultClose h .command)
  else (s1.setGrant h.index { g.closed with waiting := some k }).wait k (resultClose h .command)

/-- CLOSE in a slot (R44). On a CLOSING grant with no waiting slot it adopts the closing (R47). -/
def cmdClose (k : SlotNo) (s : State) : State :=
  let h := s.slots[k].handle
  match s.byHandle h with
  | none => s.endSlot k .stale
  | some g =>
    match g.phase with
    | .closing cause _ =>
      if g.waiting.isSome then s.endSlot k .state
      else (s.setGrant h.index { g with waiting := some k }).wait k (resultClose h cause)
    | _ => s.beginClose k h g

/-- CLOSE (R44 to R48, R141). -/
def execClose (s : State) : Host.Outcome State Fault Refusal :=
  engine (· == 0x0003#16) cmdClose s

/-! ### RENEW -/

/-- A timed lease renewed: a period other than 0 replaces it, and the remaining time is the period in force (R60). -/
def Lease.renewed (period : BitVec 16) : Lease → Lease
  | .untimed => .untimed
  | .timed k p r => Lease.restarted (.timed k (if period = 0#16 then p else period) r)

/-- RENEW in a slot: the checks of R60 in order, then the lease. -/
def cmdRenew (k : SlotNo) (s : State) : State :=
  let sl := s.slots[k]
  match s.byHandle sl.handle with
  | none => s.endSlot k .stale
  | some g =>
    if g.phase.isClosing ∨ g.lease.isTimed = false then s.endSlot k .state
    else
      let l := g.lease.renewed sl.period
      (s.setGrant sl.handle.index { g with lease := l }).finish k (resultRenew sl.handle l)

/-- RENEW (R60, R141). -/
def execRenew (s : State) : Host.Outcome State Fault Refusal :=
  engine (· == 0x0004#16) cmdRenew s

/-! ### QUERY -/

/-- The first index, at or above a given one, whose record is not FREE (R25). -/
def State.firstGrantFrom (s : State) (i : GrantIdx) : Option GrantIdx :=
  (List.finRange 64).find? fun j => decide (i ≤ j) && s.grants[j].grant.isSome

/-- The result of a QUERY of one record (R25, R26). -/
def State.recordResult (s : State) (i : GrantIdx) : List ResultWord :=
  let h : Handle := { index := i, seq := s.grants[i].seq }
  match s.grants[i].grant with
  | some g => resultQueryGrant h g
  | none => resultQueryFree h

/-- QUERY in a slot: mode 0 EXACT, mode 1 NEXT (R25, R179). -/
def cmdQuery (k : SlotNo) (s : State) : State :=
  let sl := s.slots[k]
  if sl.mode = 0#8 then s.finish k (s.recordResult sl.index)
  else if sl.mode = 1#8 then
    match s.firstGrantFrom sl.index with
    | some i => s.finish k (s.recordResult i)
    | none => s.finish k resultQueryNone
  else s.endSlot k .badarg

/-- QUERY (R25, R26, R141). -/
def execQuery (s : State) : Host.Outcome State Fault Refusal :=
  engine (· == 0x0005#16) cmdQuery s

/-! ### LOOKUP -/

/-- What LOOKUP asks: checks 1, 3, 4 and 5 and the translation (R27). -/
def State.lookupQuestion (s : State) (p : PortNo) (kind : AccessKind) (a : LocalAddr) : Lookup :=
  if s.ports[p].run = .halted then .refuse .halted none else s.lookupGrant p kind a

/-- LOOKUP in a slot (R27). -/
def cmdLookup (k : SlotNo) (s : State) : State :=
  let sl := s.slots[k]
  match sl.accessKind with
  | none => s.endSlot k .badarg
  | some kind =>
    match s.lookupQuestion sl.requester kind sl.localAddr with
    | .refuse r h => s.finish k (resultLookupRefused r h)
    | .pass i n host => s.finish k (resultLookupOk { index := i, seq := s.grants[i].seq } n host)

/-- LOOKUP (R27, R141). -/
def execLookup (s : State) : Host.Outcome State Fault Refusal :=
  engine (· == 0x0006#16) cmdLookup s

end Sys2Proof.Machine
end

