-- ==== Sys2Proof/Machine/Link.lean ====
section
/-! DEFINITION. The events of the link interface: power-on, link states, credit, and the sending of memory reads and
interrupt messages (chapter 10). -/

namespace Sys2Proof.Machine

/-- POWER_ON: every block takes its default values, every index holds sequence 1, the link is DOWN (R52, R166). The
LRST line is an input and keeps its level, and what has gone out stays gone out (log entries 1 and 5). -/
def execPowerOn (s : State) : Host.Outcome State Fault Refusal :=
  .next { State.reset with lrst := s.lrst, answers := s.answers, sent := s.sent, pending := s.pending }

/-- TRAINING_COMPLETE: the link goes UP with the credit the link partner advertises; in UP it is no event (R165, R168). -/
def execTrainingComplete (posted read : Nat) (s : State) : Host.Outcome State Fault Refusal :=
  .next (if s.link.up then s
    else { s with link := { s.link with up := true, postedCredit := posted, readCredit := read } })

/-- LINK_LOST: the link goes DOWN with a teardown; taken in DOWN it has no effect (R165, R166). -/
def execLinkLost (s : State) : Host.Outcome State Fault Refusal :=
  .next (if s.link.up then s.leaveUp else s)

/-- HOT_RESET: the link goes DOWN with a teardown, and training begins again; in DOWN it has no effect (R165, R166). -/
def execHotReset (s : State) : Host.Outcome State Fault Refusal :=
  .next (if s.link.up then s.leaveUp else s)

/-- FUNCTION_RESET: a teardown with the link staying UP and its credit kept; it cannot reach the part in DOWN
(R165, R166, R168). -/
def execFunctionReset (s : State) : Host.Outcome State Fault Refusal :=
  .next (if s.link.up then s.teardown else s)

/-- CREDIT_GRANT: both amounts rise by what the link partner grants, over a link that is UP (R168; log entry 10). -/
def execCreditGrant (posted read : Nat) (s : State) : Host.Outcome State Fault Refusal :=
  .next (if s.link.up then
      { s with link := { s.link with
          postedCredit := s.link.postedCredit + posted, readCredit := s.link.readCredit + read } }
    else s)

/-- The front of the outbound list leaves it and is on the link (R169). -/
def State.sendFront (r : Request) (rest : List Request) (s : State) : State :=
  { s with link := { s.link with outbound := rest }, sent := s.sent ++ [r] }

/-- MEMORY_READ_SEND: a memory read at the front is sent while the link is UP and read credit is held; else it waits
(R168, R169). -/
def execMemoryReadSend (s : State) : Host.Outcome State Fault Refusal :=
  .next (match s.link.outbound with
    | .memRead t a n :: rest =>
      if s.link.up ∧ Config.readCredit ≤ s.link.readCredit then
        let s' := s.sendFront (.memRead t a n) rest
        { s' with link := { s'.link with readCredit := s.link.readCredit - Config.readCredit } }
      else s
    | _ => s)

/-- MESSAGE_SEND: the message at the front is removed unsent when messaging is disabled as it reaches the front; it is sent
when posted-write credit for it is held; else it waits, and a later change of the enable does not reach it (R168, R169,
R172). `messaging` is the enable that is read if none has been read for this message yet; the state holds the one read until
the message has left (log entry 9). -/
def execMessageSend (messaging : Bool) (s : State) : Host.Outcome State Fault Refusal :=
  .next (match s.link.outbound with
    | .message :: rest =>
      if s.link.up then
        if s.link.messaging || messaging then
          if Config.messageCredit ≤ s.link.postedCredit then
            let t := s.sendFront .message rest
            { t with link := { t.link with
                postedCredit := s.link.postedCredit - Config.messageCredit, messaging := false } }
          else { s with link := { s.link with messaging := true } }
        else { s with link := { s.link with outbound := rest } }
      else s
    | _ => s)

end Sys2Proof.Machine
end

