-- ==== Sys2Proof/Machine/ReadUnit.lean ====
section
/-! DEFINITION. The read unit: completion parts, deadlines and park periods (chapter 5). -/

namespace Sys2Proof.Machine

/-- A completion part as the link interface hands it over: SUCCESS with its bytes, or an error status (R100, R173). -/
inductive Part where
  | success (data : List Byte)
  | error
  deriving DecidableEq, Repr

/-- What the link interface hands over (R173): success of more than 512 bytes is an ABORT. UNSUPPORTED and ABORT are
taken alike by the read unit (R102). -/
def partOf : Completion → Part
  | .success data => if Config.maxAccessBytes < data.length then .error else .success data
  | .unsupported => .error
  | .otherError => .error

/-- A SUCCESS part within what remains, on a WAITING tag: the beat, if the tag is not detached, and the bytes received
(R100). -/
def State.takeBytes (t : TagNo) (r : ReadInfo) (i rem : Nat) (data : List Byte) (s : State) : State :=
  let s' := s.setTag t (.waiting { r with received := r.received + data.length } i rem)
  if r.detached then s' else s'.answer r.requester (.beat r.label r.received data)

/-- A part on a WAITING tag (R100 to R102). -/
def State.partOnWaiting (t : TagNo) (r : ReadInfo) (i rem : Nat) (part : Part) (s : State) : State :=
  match part with
  | .error => s.retire t r .hosterr .free
  | .success data =>
    if data.length = 0 ∨ r.length - r.received < data.length then s.retire t r .hosterr .free
    else
      let s' := s.takeBytes t r i rem data
      if r.received + data.length = r.length then s'.retire t r .ok .free else s'

/-- A part on a tag, by the tag's state: a PARKED tag is freed by it (R107), a FREE tag makes it stray (R109). -/
def State.takePart (t : TagNo) (part : Part) (s : State) : State :=
  match s.tags[t] with
  | .waiting r i rem => s.partOnWaiting t r i rem part
  | .parked _ _ => s.setTag t .free
  | .free => s.setCauses causeStray

/-- COMPLETION_PART: taken according to the state of the tag it names; a tag outside 0 to 31 makes it stray (R100, R109).
No completion arrives while the link is DOWN (R165, R173). -/
def execCompletionPart (tag : Nat) (completion : Completion) (s : State) : Host.Outcome State Fault Refusal :=
  if s.link.up then
    answerNext s
      (if h : tag < 32 then s.takePart ⟨tag, h⟩ (partOf completion) else s.setCauses causeStray)
  else .next s

/-- DEADLINE_EXPIRY: the time remaining of a WAITING tag has reached 0, so its read is retired with TIMEOUT and the tag
becomes PARKED for its issue timeout (R105). The event reaches no other entry (R92), and none with time left. -/
def execDeadlineExpiry (tag : TagNo) (s : State) : Host.Outcome State Fault Refusal :=
  match s.tags[tag] with
  | .waiting r i 0 => answerNext s (s.retire tag r .timeout (.parked i (i * Config.unitsPerMs)))
  | _ => .next s

/-- PARK_PERIOD_END: the time remaining of a PARKED tag has reached 0, so the tag becomes FREE (R107). The event reaches no
other entry (R92), and none with time left. -/
def execParkPeriodEnd (tag : TagNo) (s : State) : Host.Outcome State Fault Refusal :=
  match s.tags[tag] with
  | .parked _ 0 => .next (s.setTag tag .free)
  | _ => .next s

end Sys2Proof.Machine
end

