-- ==== Sys2Proof/Machine/Timers.lean ====
section
/-! DEFINITION. Lease expiry, holdoff expiry, and the passing of time. -/

namespace Sys2Proof.Machine

/-- The expiry of a running lease, before the freeing: CLOSING with cause EXPIRED, remaining time 0, no waiting slot
(R56). -/
def Grant.expired (g : Grant) : Grant :=
  { g with phase := .closing .expired g.phase.prev, lease := g.lease.runOut, waiting := none }

/-- The grant's lease timer runs and its remaining time has reached 0: the lease expires (R54, R56). -/
def Grant.leaseDue (g : Grant) : Bool :=
  g.leaseRuns && g.lease.remaining == 0

/-- LEASE_EXPIRY: the remaining time has reached 0, so the grant enters CLOSING, a waiting MODIFY is overtaken, the index
joins the expired set, GRANT_EXPIRED is set, and the grant is freed at once when both counts are 0 (R56). No event where no
lease timer runs or time is left in it (R54): a restart taken first means that the expiry does not occur (R21, R43, R61). -/
def execLeaseExpiry (index : GrantIdx) (s : State) : Host.Outcome State Fault Refusal :=
  match s.grants[index].grant with
  | none => .next s
  | some g =>
    if g.leaseDue then
      let s1 := ((s.setGrant index g.expired).report g.waiting .overtaken).setCauses causeGrantExpired
      let s2 := { s1 with expired := s1.expired ||| single index.val }
      answerNext s (if g.expired.idleTraffic then s2.freeGrant index else s2)
    else .next s

/-- HOLDOFF_EXPIRY: no time is left in the timer, so it stops and a send attempt is made if the event count is 1 or more
(R158, R159). No event while the timer is stopped or has time left. -/
def execHoldoffExpiry (s : State) : Host.Outcome State Fault Refusal :=
  match s.notice.holdoffTimer with
  | some 0 =>
    let s' := { s with notice := { s.notice with holdoffTimer := none } }
    .next (if 1 ≤ s.notice.eventCount then s'.sendAttempt else s')
  | _ => .next s

/-! ### Time (log entries 3 and 4) -/

/-- A lease with one unit less of remaining time. -/
def Lease.tick : Lease → Lease
  | .untimed => .untimed
  | .timed k p r => .timed k p (r - 1)

/-- A record after one unit of time: only a running lease falls (R54). -/
def Record.tick (r : Record) : Record :=
  match r.grant with
  | some g => if g.leaseRuns then { r with grant := some { g with lease := g.lease.tick } } else r
  | none => r

/-- A tag after one unit of time: deadlines and park periods fall (R104, R105). -/
def TagEntry.tick : TagEntry → TagEntry
  | .free => .free
  | .waiting r i t => .waiting r i (t - 1)
  | .parked i t => .parked i (t - 1)

/-- A record's lease timer stands at 0: its expiry is due. -/
def Record.due (r : Record) : Bool :=
  match r.grant with
  | some g => g.leaseDue
  | none => false

/-- A tag's timer stands at 0: its expiry is due. -/
def TagEntry.due : TagEntry → Bool
  | .free => false
  | .waiting _ _ t => t == 0
  | .parked _ t => t == 0

/-- Some running timer stands at 0, so that time cannot pass before its expiry is taken. -/
def State.expiryDue (s : State) : Bool :=
  s.grants.toList.any Record.due || s.tags.toList.any TagEntry.due
    || s.notice.holdoffTimer == some 0

/-- One unit of 10 µs passes: every running timer falls by one. A timer that stands at 0 waits for its expiry, which is a
command of its own (log entry 3). -/
def State.tick (s : State) : State :=
  if s.expiryDue then s
  else
    { s with
      grants := Vector.ofFn fun i : GrantIdx => s.grants[i].tick
      tags := Vector.ofFn fun t : TagNo => s.tags[t].tick
      notice := { s.notice with holdoffTimer := s.notice.holdoffTimer.map (· - 1) } }

end Sys2Proof.Machine
end

