-- ==== Sys2Proof/Machine/Window.lean ====
section
/-! DEFINITION. The host window: what a write of each word does, and what a read of each word returns (chapters 8, 9 and
11). -/

namespace Sys2Proof.Machine

/-! ### Writes, word by word -/

/-- A submission: the slot enters PENDING with its result area and status cleared, and joins the tail of the submission
order; its arguments are kept (R138). -/
def State.submit (k : SlotNo) (opcode : BitVec 16) (s : State) : State :=
  let s' := s.setSlot k { s.slots[k] with
    state := .pending, opcode := opcode, status := .none, collided := false, result := Vector.replicate 32 0#32 }
  { s' with order := s'.order ++ [k] }

/-- A write of a slot's submit word: bits 15:0 are the CANCEL code or an opcode (R138 to R140, R177). A slot that is
WAITING with a snapshot holds a waiting FENCE (R133). -/
def State.writeSubmit (k : SlotNo) (v : Word) (s : State) : State :=
  if v.extractLsb' 0 16 = Config.cancelCode then
    if s.slots[k].state = .waiting ∧ s.slots[k].snapshot.isSome then s.endSlot k .cancelled else s.collide k
  else if s.slots[k].busy then s.collide k
  else s.submit k (v.extractLsb' 0 16)

/-- A write of an argument word, by its number from +0x10: taken by a free slot, a collision with a busy one (R135). -/
def State.writeArg (k : SlotNo) (n : Nat) (v : Word) (s : State) : State :=
  if s.slots[k].busy then s.collide k
  else s.setSlot k { s.slots[k] with args := s.slots[k].args.setIfInBounds n v }

/-- The acknowledge word removes the causes named from status (R154). -/
def State.writeAcknowledge (v : Word) (s : State) : State :=
  { s with notice := { s.notice with status := s.notice.status &&& ~~~ (causesOf v) } }

/-- Enable becomes a set of causes (R155). -/
def State.setEnable (e : CauseSet) (s : State) : State :=
  { s with notice := { s.notice with enable := e } }

/-- The master enable word: bit 0 sets master enable; turning it on makes a send attempt when pending is non-empty and the
event count is 1 or more (R160, R176). -/
def State.writeMasterEnable (v : Word) (s : State) : State :=
  let s' := { s with notice := { s.notice with masterEnable := v.getLsbD 0 } }
  if !s.notice.masterEnable ∧ v.getLsbD 0 ∧ s.notice.pendingSet ≠ 0#15 ∧ 1 ≤ s.notice.eventCount then s'.sendAttempt
  else s'

/-- A word of the expired set, 0 or 1: ones remove members (R59, R176). -/
def State.writeExpired (word : Fin 2) (v : Word) (s : State) : State :=
  { s with expired := s.expired &&& ~~~ (v.setWidth 64 <<< (32 * word.val)) }

/-- The slot in whose 256 bytes an offset lies (R176). -/
def slotOfOffset (off : Nat) : Option SlotNo :=
  if h : 0x1000 ≤ off ∧ off < 0x1400 then some ⟨(off - 0x1000) / 0x100, by omega⟩ else none

/-- A taken write goes to the owner of its word (R167, R176, R177). A write of a read-only word, of a result word, of a
status word or at an undefined offset has no effect and is no collision. -/
def State.writeWord (offset : BitVec 14) (v : Word) (s : State) : State :=
  let off := offset.toNat
  match slotOfOffset off with
  | some k =>
    let rel := off % 0x100
    if rel = 0x00 then s.writeSubmit k v
    else if 0x10 ≤ rel ∧ rel ≤ 0x7C then s.writeArg k ((rel - 0x10) / 4) v
    else s
  | none =>
    if off = 0x0104 then s.setEnable (causesOf v)
    else if off = 0x010C then s.writeAcknowledge v
    else if off = 0x0110 then s.setEnable (s.notice.enable ||| causesOf v)
    else if off = 0x0114 then s.setEnable (s.notice.enable &&& ~~~ (causesOf v))
    else if off = 0x0118 then s.writeMasterEnable v
    else if off = 0x0200 then s.writeExpired 0 v
    else if off = 0x0204 then s.writeExpired 1 v
    else s

/-! ### The rows -/

/-- SUBMISSION: a write of a submit word (R138); a busy slot makes it a collision (R139). -/
def execSubmission (slot : SlotNo) (value : Word) (s : State) : Host.Outcome State Fault Refusal :=
  hostAccess (State.writeSubmit slot value) s

/-- CANCEL: a write of the CANCEL code (R140, R177); it ends a waiting FENCE, else it is a collision (R139). -/
def execCancel (slot : SlotNo) (upper : BitVec 16) (s : State) : Host.Outcome State Fault Refusal :=
  hostAccess (State.writeSubmit slot (upper ++ Config.cancelCode)) s

/-- HOST_WINDOW_WRITE: a write that is not taken has no effect (R167). -/
def execHostWindowWrite (offset : BitVec 14) (width : Nat) (enables : BitVec 4) (value : Word) (s : State) :
    Host.Outcome State Fault Refusal :=
  hostAccess (fun s => if writeTaken offset width enables then s.writeWord offset value else s) s

/-- ACKNOWLEDGE (R154). -/
def execAcknowledge (value : Word) (s : State) : Host.Outcome State Fault Refusal :=
  hostAccess (State.writeAcknowledge value) s

/-- ENABLE: enable becomes exactly the causes written (R155). -/
def execEnable (value : Word) (s : State) : Host.Outcome State Fault Refusal :=
  hostAccess (State.setEnable (causesOf value)) s

/-- SET_ENABLE: the causes written join enable (R155). -/
def execSetEnable (value : Word) (s : State) : Host.Outcome State Fault Refusal :=
  hostAccess (fun s => s.setEnable (s.notice.enable ||| causesOf value)) s

/-- CLEAR_ENABLE: the causes written leave enable (R155). -/
def execClearEnable (value : Word) (s : State) : Host.Outcome State Fault Refusal :=
  hostAccess (fun s => s.setEnable (s.notice.enable &&& ~~~ (causesOf value))) s

/-- MASTER_ENABLE (R160). -/
def execMasterEnable (value : Word) (s : State) : Host.Outcome State Fault Refusal :=
  hostAccess (State.writeMasterEnable value) s

/-- EXPIRED_SET_CLEAR (R59). -/
def execExpiredSetClear (word : Fin 2) (value : Word) (s : State) : Host.Outcome State Fault Refusal :=
  hostAccess (State.writeExpired word value) s

/-! ### Reads: no row, no side effect (R167; log entry 14) -/

/-- The submit word of a slot (R177). -/
def Slot.submitWord (sl : Slot) : Word :=
  sl.opcode.setWidth 32 ||| put 16 2 sl.state.code

/-- The status word of a slot (R177). -/
def Slot.statusWord (sl : Slot) : Word :=
  put 0 4 sl.status.code ||| flag 8 sl.collided

/-- A word of a slot, by its offset in the slot's 256 bytes (R177). -/
def Slot.readWord (sl : Slot) (rel : Nat) : Word :=
  if rel = 0x00 then sl.submitWord
  else if rel = 0x04 then sl.statusWord
  else if 0x10 ≤ rel ∧ rel ≤ 0x7C then sl.arg rel
  else if 0x80 ≤ rel ∧ rel ≤ 0xFC then (sl.result[(rel - 0x80) / 4]?).getD 0#32
  else 0#32

/-- What a taken read of the word at an offset returns (R167, R176): 0 at an undefined offset. -/
def State.readWord (s : State) (offset : BitVec 14) : Word :=
  let off := offset.toNat
  match slotOfOffset off with
  | some k => s.slots[k].readWord (off % 0x100)
  | none =>
    if off = 0x0000 then Config.partCode
    else if off = 0x0004 then Config.revision
    else if off = 0x0008 then 64#32
    else if off = 0x000C then 32#32
    else if off = 0x0010 then 16#32
    else if off = 0x0014 then 8#32
    else if off = 0x0018 then 4#32
    else if off = 0x0100 then s.notice.status.setWidth 32
    else if off = 0x0104 ∨ off = 0x0110 ∨ off = 0x0114 then s.notice.enable.setWidth 32
    else if off = 0x0108 then s.notice.pendingSet.setWidth 32
    else if off = 0x0118 then flag 0 s.notice.masterEnable
    else if off = 0x011C then put 0 8 s.notice.eventCount ||| flag 8 s.notice.holdoffTimer.isSome
    else if off = 0x0200 then s.expired.extractLsb' 0 32
    else if off = 0x0204 then s.expired.extractLsb' 32 32
    else 0#32

/-- A host memory read of `width` bytes, in the link's UP state: a read that is not of one whole word, all enabled, reads no
word and is completed with every byte 0 (R167). None while the link is DOWN: no access reaches the window. -/
def State.hostRead (s : State) (offset : BitVec 14) (width : Nat) (enables : BitVec 4) : Option Word :=
  if s.link.up then some (if writeTaken offset width enables then s.readWord offset else 0#32) else none

end Sys2Proof.Machine
end

