-- ==== Sys2Proof/Machine/Dispatch.lean ====
section
/-! DEFINITION. One arm for each command. -/

namespace Sys2Proof.Machine

def exec (i : Instr) (s : State) : Host.Outcome State Fault Refusal :=
  match i with
  | .powerOn => Sys2Proof.Machine.execPowerOn s
  | .trainingComplete posted read => Sys2Proof.Machine.execTrainingComplete posted read s
  | .linkLost => Sys2Proof.Machine.execLinkLost s
  | .hotReset => Sys2Proof.Machine.execHotReset s
  | .functionReset => Sys2Proof.Machine.execFunctionReset s
  | .creditGrant posted read => Sys2Proof.Machine.execCreditGrant posted read s
  | .lrstAssertion => Sys2Proof.Machine.execLrstAssertion s
  | .lrstDeassertion => Sys2Proof.Machine.execLrstDeassertion s
  | .presentAccess port access => Sys2Proof.Machine.execPresentAccess port access s
  | .tagGrant => Sys2Proof.Machine.execTagGrant s
  | .writeGrant => Sys2Proof.Machine.execWriteGrant s
  | .writeLeaving => Sys2Proof.Machine.execWriteLeaving s
  | .memoryReadSend => Sys2Proof.Machine.execMemoryReadSend s
  | .completionPart tag completion => Sys2Proof.Machine.execCompletionPart tag completion s
  | .deadlineExpiry tag => Sys2Proof.Machine.execDeadlineExpiry tag s
  | .parkPeriodEnd tag => Sys2Proof.Machine.execParkPeriodEnd tag s
  | .leaseExpiry index => Sys2Proof.Machine.execLeaseExpiry index s
  | .submission slot value => Sys2Proof.Machine.execSubmission slot value s
  | .openGrant => Sys2Proof.Machine.execOpenGrant s
  | .modify => Sys2Proof.Machine.execModify s
  | .close => Sys2Proof.Machine.execClose s
  | .renew => Sys2Proof.Machine.execRenew s
  | .query => Sys2Proof.Machine.execQuery s
  | .lookup => Sys2Proof.Machine.execLookup s
  | .fence => Sys2Proof.Machine.execFence s
  | .setRequester => Sys2Proof.Machine.execSetRequester s
  | .queryRequester => Sys2Proof.Machine.execQueryRequester s
  | .resume => Sys2Proof.Machine.execResume s
  | .resetRequester => Sys2Proof.Machine.execResetRequester s
  | .setTiming => Sys2Proof.Machine.execSetTiming s
  | .badop => Sys2Proof.Machine.execBadop s
  | .cancel slot upper => Sys2Proof.Machine.execCancel slot upper s
  | .hostWindowWrite offset width enables value => Sys2Proof.Machine.execHostWindowWrite offset width enables value s
  | .acknowledge value => Sys2Proof.Machine.execAcknowledge value s
  | .enable value => Sys2Proof.Machine.execEnable value s
  | .setEnable value => Sys2Proof.Machine.execSetEnable value s
  | .clearEnable value => Sys2Proof.Machine.execClearEnable value s
  | .masterEnable value => Sys2Proof.Machine.execMasterEnable value s
  | .expiredSetClear word value => Sys2Proof.Machine.execExpiredSetClear word value s
  | .holdoffExpiry => Sys2Proof.Machine.execHoldoffExpiry s
  | .messageSend messaging => Sys2Proof.Machine.execMessageSend messaging s

end Sys2Proof.Machine
end

