-- ==== Sys2Proof/Safety.lean ====
section
/-! DEFINITION. What the spec promises of every state of the part, and how a change moderates: the terms in which
statements are made. Nothing here is used by a meaning. -/

namespace Sys2Proof.Safety

open Sys2Proof.Machine

/-! ### Grant table -/

/-- Every sequence lies in 1 to 255 (R7). -/
def SequencesNonzero (s : State) : Prop :=
  ∀ i : GrantIdx, s.grants[i].seq ≠ 0#8

/-- How many WAITING tags carry a generation of a grant (R28): detached or not. -/
def tagsCarrying (s : State) (i : GrantIdx) (n : GenNo) : Nat :=
  s.tags.toList.countP fun e => match e with | .waiting r _ _ => r.index == i && r.gen == n | _ => false

/-- How many write-queue entries carry a generation of a grant (R28). -/
def entriesCarrying (s : State) (i : GrantIdx) (n : GenNo) : Nat :=
  s.queue.countP fun e => e.index == i && e.gen == n

/-- The in-flight count that a record holds for a generation number: 0 for one that is not live. -/
def countHeld (r : Record) (n : GenNo) : Nat :=
  match r.grant with
  | none => 0
  | some g =>
    if g.cur.number = n then g.cur.count
    else
      match g.phase.prev with
      | some p => if p.number = n then p.count else 0
      | none => 0

/-- The generations of a grant: a previous one has the number before the current one and a count of 1 or more (R33, R28);
a grant in CLOSING has traffic in flight (R47). -/
def generationsSound (g : Grant) : Prop :=
  (∀ p, g.phase.prev = some p → p.number + 1#4 = g.cur.number ∧ 1 ≤ p.count)
    ∧ (g.phase.isClosing = true → g.idleTraffic = false)

/-- Each generation's in-flight count is the number of WAITING tags and write-queue entries carrying it, and each of
these carries a live generation (R28); the queue holds at most 16 entries (R113). -/
def TrafficAccounted (s : State) : Prop :=
  (∀ i : GrantIdx, ∀ n : GenNo, tagsCarrying s i n + entriesCarrying s i n = countHeld s.grants[i] n)
    ∧ (∀ i : GrantIdx, ∀ g, s.grants[i].grant = some g → generationsSound g)
    ∧ s.queue.length ≤ 16

/-- The mapping of a grant keeps the ranges of R1: whole pages, inside the aperture and inside host memory, with some right
and some client. -/
def mappingLegal (g : Grant) : Prop :=
  g.localBase.toNat % 4096 = 0 ∧ g.cur.length % 4096 = 0 ∧ 4096 ≤ g.cur.length ∧ g.cur.length ≤ 268435456
    ∧ g.localBase.toNat + g.cur.length ≤ 0x40000000
    ∧ g.cur.hostBase.toNat % 4096 = 0 ∧ g.cur.hostBase.toNat + g.cur.length ≤ 2 ^ 64
    ∧ g.cur.rights ≠ 0#2 ∧ g.cur.clients ≠ 0#8

/-- Every grant's mapping is legal, and any two grants not in FREE cover disjoint local ranges (R1, R9). -/
def RangesDisjoint (s : State) : Prop :=
  (∀ i : GrantIdx, ∀ g, s.grants[i].grant = some g → mappingLegal g)
    ∧ ∀ i j : GrantIdx, i ≠ j → ∀ g h, s.grants[i].grant = some g → s.grants[j].grant = some h →
        rangesOverlap g.localBase.toNat g.cur.length h.localBase.toNat h.cur.length = false

/-- A lease's period is 1 or more, its remaining time never above the period, above 0 after a CLOSE, and 0 after an expiry,
which only a timed lease has (R53, R54). -/
def leaseSound (g : Grant) : Prop :=
  match g.lease with
  | .untimed => g.phase.cause ≠ some .expired
  | .timed _ p r =>
    p ≠ 0#16 ∧ r ≤ p.toNat * 100 ∧ (g.phase.cause = some .expired → r = 0) ∧ (g.phase.cause = some .command → 1 ≤ r)

/-- Every lease is sound (R53, R54). -/
def LeasesSound (s : State) : Prop :=
  ∀ i : GrantIdx, ∀ g, s.grants[i].grant = some g → leaseSound g

/-! ### Ports -/

/-- Whether an entry is a WAITING, not detached tag of a requester with a label (R69). -/
def holdsLabel (p : PortNo) (l : Label) : TagEntry → Bool
  | .waiting r _ _ => r.requester == p && !r.detached && r.label == l
  | _ => false

/-- What a port keeps for its requester agrees with the tag table (R64, R69, R73): the outstanding count is the number of
the requester's WAITING, not detached tags; its labels in use are theirs, no two alike; the count never exceeds the read
limit, which is 1 to 8. -/
def portAccounted (s : State) (p : PortNo) : Prop :=
  s.ports[p].outstanding = s.liveTags p
    ∧ (∀ l : Label, s.tags.toList.countP (holdsLabel p l) = (s.ports[p].labels.getLsbD l.toNat).toNat)
    ∧ s.ports[p].outstanding ≤ s.ports[p].readLimit
    ∧ 1 ≤ s.ports[p].readLimit ∧ s.ports[p].readLimit ≤ 8

def PortsAccounted (s : State) : Prop :=
  ∀ p : PortNo, portAccounted s p

/-- A HALTED requester has a filled fault slot (R80); faults are counted only against a filled slot, up to 255 (R78). -/
def FaultSlotsSound (s : State) : Prop :=
  ∀ p : PortNo,
    (s.ports[p].run = .halted → s.ports[p].fault.isSome = true)
      ∧ (s.ports[p].overflow ≠ 0 → s.ports[p].fault.isSome = true) ∧ s.ports[p].overflow ≤ 255

/-- While LRST is asserted every head is absent and no read is un-detached (R88). -/
def LrstQuiet (s : State) : Prop :=
  s.lrst = true → ∀ p : PortNo, s.ports[p].head = none ∧ s.liveTags p = 0

/-! ### Read unit -/

/-- A WAITING tag's read is 1 to 512 bytes and not yet whole; its time remaining lies within its issue timeout of 1 to 64 ms;
the same timer bounds hold for a PARKED tag (R91). -/
def tagSound : TagEntry → Prop
  | .free => True
  | .waiting r i t => 1 ≤ r.length ∧ r.length ≤ 512 ∧ r.received < r.length ∧ 1 ≤ i ∧ i ≤ 64 ∧ t ≤ i * 100
  | .parked i t => 1 ≤ i ∧ i ≤ 64 ∧ t ≤ i * 100

/-- Every tag is sound (R91), and the timing parameters lie in their ranges (R147). -/
def TagsSound (s : State) : Prop :=
  (∀ t : TagNo, tagSound s.tags[t])
    ∧ 1 ≤ s.timing.timeout ∧ s.timing.timeout ≤ 64
    ∧ 1 ≤ s.timing.threshold ∧ s.timing.threshold ≤ 255 ∧ s.timing.holdoff ≤ 255

/-! ### Slots, waits and snapshots -/

/-- The submission order lists the PENDING slots, each once (R141). -/
def orderSound (s : State) : Prop :=
  s.order.Nodup ∧ ∀ k : SlotNo, k ∈ s.order ↔ s.slots[k].state = .pending

/-- A slot has a status code exactly in DONE (R137). -/
def statusSound (s : State) : Prop :=
  ∀ k : SlotNo, s.slots[k].status ≠ .none ↔ s.slots[k].state = .done

/-- A snapshot belongs to a WAITING slot and has members; each member tag is WAITING and each member entry is in the write
queue (R125, R126, R134). -/
def snapshotsSound (s : State) : Prop :=
  ∀ k : SlotNo, ∀ sn, s.slots[k].snapshot = some sn →
    s.slots[k].state = .waiting ∧ sn.isEmpty = false
      ∧ (∀ t : TagNo, sn.tags.getLsbD t.val = true → ∃ r i u, s.tags[t] = .waiting r i u)
      ∧ (∀ n : Nat, sn.entries.getLsbD n = true → n < s.queue.length)

/-- The waiting slot of a grant names a WAITING slot without a snapshot, no two grants name one slot, a DRAINING grant has
a waiting slot and an OPEN one has none (R6, R41, R134). -/
def waitsSound (s : State) : Prop :=
  (∀ i : GrantIdx, ∀ g, s.grants[i].grant = some g →
      (g.phase = .opened → g.waiting = none) ∧ (∀ p, g.phase = .draining p → g.waiting.isSome = true)
        ∧ ∀ k, g.waiting = some k → s.slots[k].state = .waiting ∧ s.slots[k].snapshot = none)
    ∧ ∀ i j : GrantIdx, ∀ g h k, s.grants[i].grant = some g → s.grants[j].grant = some h →
        g.waiting = some k → h.waiting = some k → i = j

/-- A WAITING slot waits for something that is outstanding: its snapshot, or a grant that names it (R134). -/
def waitingHasCause (s : State) : Prop :=
  ∀ k : SlotNo, s.slots[k].state = .waiting →
    s.slots[k].snapshot.isSome = true ∨ ∃ i : GrantIdx, ∃ g, s.grants[i].grant = some g ∧ g.waiting = some k

def SlotsSound (s : State) : Prop :=
  orderSound s ∧ statusSound s ∧ snapshotsSound s ∧ waitsSound s ∧ waitingHasCause s

/-! ### Notice unit and link interface -/

/-- The event count is at most 255, and the holdoff timer runs only with a count of 1 or more and with at most 2550 µs left
(R151, R159), the holdoff being at most 255 units (R147). -/
def NoticesSound (s : State) : Prop :=
  s.notice.eventCount ≤ 255 ∧ s.timing.holdoff ≤ 255
    ∧ ∀ t, s.notice.holdoffTimer = some t → t ≤ 255 ∧ 1 ≤ s.notice.eventCount

/-- The tag of a memory read, in the outbound list. -/
def readTag : Request → Option TagNo
  | .memRead t _ _ => some t
  | _ => none

/-- The outbound list holds no memory write, at most one interrupt message, and at most one memory read for each tag, that
of the read its tag is WAITING with (R169, R170, R172). That an enable of messaging is held, and only for a message at the
front, is the model's form of the input of R172 (log entry 9). -/
def OutboundSound (s : State) : Prop :=
  (∀ a n d, Request.memWrite a n d ∉ s.link.outbound)
    ∧ s.link.outbound.count .message ≤ 1
    ∧ (s.link.outbound.filterMap readTag).Nodup
    ∧ (∀ t a n, Request.memRead t a n ∈ s.link.outbound →
        ∃ r i u, s.tags[t] = .waiting r i u ∧ r.hostAddr = a ∧ r.length = n)
    ∧ (s.link.messaging = true → s.link.outbound.head? = some .message)

/-- While the link is DOWN the host side stands at its defaults: no grant, no tag in use, no queued write, both last-granted
ports at 7, no submitted command, the default timing parameters, nothing to send and no credit; no cause is enabled, no holdoff
runs and no message may be sent (R93, R99, R123, R149, R163, R168, R172). -/
def DownIsQuiet (s : State) : Prop :=
  s.link.up = false →
    (∀ i : GrantIdx, s.grants[i].grant = none) ∧ (∀ p : PortNo, s.ports[p].head = none)
      ∧ (∀ t : TagNo, s.tags[t] = .free) ∧ s.queue = [] ∧ s.order = [] ∧ (∀ k : SlotNo, s.slots[k] = Slot.initial)
      ∧ s.expired = 0#64 ∧ s.notice.enable = 0#15 ∧ s.notice.masterEnable = false ∧ s.notice.eventCount = 0
      ∧ s.notice.holdoffTimer = none ∧ s.timing = { timeout := 16, threshold := 1, holdoff := 0 }
      ∧ s.tagLast = 7 ∧ s.writeLast = 7
      ∧ s.link.outbound = [] ∧ s.link.postedCredit = 0 ∧ s.link.readCredit = 0 ∧ s.link.messaging = false

/-! ### How one change moderates (R157, R158) -/

/-- What `n` events of one change make of the event count, the holdoff timer and the outbound list: `s` is the state before,
`t` the state after, `joined` the outbound list before moderation; `retest` says that the threshold changed (R148). -/
structure Moderated (s t : State) (n : Nat) (retest : Bool) (joined : List Request) : Prop where
  /-- With no event and no change of threshold nothing happens. -/
  quiet : n = 0 → retest = false →
    t.notice.eventCount = s.notice.eventCount ∧ t.notice.holdoffTimer = s.notice.holdoffTimer
      ∧ t.link.outbound = joined
  /-- At the threshold with master enable on: one attempt, which sends when pending is not empty. -/
  attempt : (0 < n ∨ retest = true) → t.timing.threshold ≤ countAfter s.notice.eventCount n →
    s.notice.masterEnable = true →
      t.notice.eventCount = 0 ∧ t.notice.holdoffTimer = none
        ∧ t.link.outbound
            = if t.notice.pendingSet = 0#15 ∨ Request.message ∈ joined then joined else joined ++ [Request.message]
  /-- At the threshold with master enable off: the events are counted and nothing else happens. -/
  silent : (0 < n ∨ retest = true) → t.timing.threshold ≤ countAfter s.notice.eventCount n →
    s.notice.masterEnable = false →
      t.notice.eventCount = countAfter s.notice.eventCount n ∧ t.notice.holdoffTimer = s.notice.holdoffTimer
        ∧ t.link.outbound = joined
  /-- Below the threshold the events are counted, and the first one starts the holdoff timer. -/
  gather : countAfter s.notice.eventCount n < t.timing.threshold →
      t.notice.eventCount = countAfter s.notice.eventCount n ∧ t.link.outbound = joined
        ∧ t.notice.holdoffTimer
            = if 0 < n ∧ s.notice.eventCount = 0 ∧ 0 < t.timing.holdoff then some t.timing.holdoff
              else s.notice.holdoffTimer

/-- The notice unit after a change that sets the causes `c` and nothing else in it (R153, R156 to R158). -/
structure Noticed (s t : State) (c : CauseSet) (joined : List Request) : Prop where
  status : t.notice.status = s.notice.status ||| c
  enable : t.notice.enable = s.notice.enable
  master : t.notice.masterEnable = s.notice.masterEnable
  moderated :
    Moderated s t (members ((t.notice.status &&& t.notice.enable) &&& ~~~ (s.notice.status &&& s.notice.enable)))
      (decide (s.timing.threshold ≠ t.timing.threshold)) joined

/-- `t` is `x` in everything but the notice unit and the messages of the outbound list, and these are what a change of `s`
that sets the causes `c` makes of them. It is the frame of every command: `x` names all else that changed. -/
def Settles (s x : State) (c : CauseSet) (t : State) : Prop :=
  t = { x with notice := t.notice, link := { x.link with outbound := t.link.outbound } }
    ∧ Noticed s t c x.link.outbound

/-! ### What departures do to a grant and to a snapshot (R31, R126, R127) -/

/-- A slot that has ended with a status (R137, R145). -/
def endedSlot (sl : Slot) (st : Status) : Slot :=
  { sl with state := .done, status := st, snapshot := none }

/-- The sequence after a freeing (R5). -/
def seqAfter (q : Seq) : Seq :=
  if q = 255#8 then 1#8 else q + 1#8

/-- A record whose grant is freed (R5). -/
def freedRecord (r : Record) : Record :=
  { seq := seqAfter r.seq, grant := none }

/-- The cases of R31 for a fall of the count of generation `n`: the record after it, and the slot that ends OK, if any. -/
def fallOutcome (r : Record) (n : GenNo) : Record × Option SlotNo :=
  match r.grant with
  | none => (r, none)
  | some g =>
    if g.cur.number = n then
      match g.phase with
      | .closing _ none =>
        if g.cur.count - 1 = 0 then (freedRecord r, g.waiting)
        else ({ r with grant := some { g with cur := { g.cur with count := g.cur.count - 1 } } }, none)
      | _ => ({ r with grant := some { g with cur := { g.cur with count := g.cur.count - 1 } } }, none)
    else
      match g.phase with
      | .draining p =>
        if p.number ≠ n then (r, none)
        else if p.count - 1 = 0 then ({ r with grant := some { g with phase := .opened, waiting := none } }, g.waiting)
        else ({ r with grant := some { g with phase := .draining { p with count := p.count - 1 } } }, none)
      | .closing c (some p) =>
        if p.number ≠ n then (r, none)
        else if p.count - 1 = 0 then
          if g.cur.count = 0 then (freedRecord r, g.waiting)
          else ({ r with grant := some { g with phase := .closing c none } }, none)
        else ({ r with grant := some { g with phase := .closing c (some { p with count := p.count - 1 }) } }, none)
      | _ => (r, none)

/-- A snapshot after a departure: gone with its FENCE ended OK when it has no members left (R127). -/
def slotAfterDeparture (sl : Slot) (sn : Snapshot) : Slot :=
  if sn.tags = 0#32 ∧ sn.entries = 0#16 then endedSlot sl .ok else { sl with snapshot := some sn }

/-- A slot after the retirement of a tag (R126): only a snapshot that holds the tag changes. -/
def slotAfterTag (t : TagNo) (sl : Slot) : Slot :=
  match sl.snapshot with
  | none => sl
  | some sn =>
    if sn.tags.getLsbD t.val then slotAfterDeparture sl { sn with tags := sn.tags &&& ~~~ (1#32 <<< t.val) } else sl

/-- A slot after the leaving of the head entry of the write queue (R126): the entries behind it move up one place. -/
def slotAfterEntry (sl : Slot) : Slot :=
  match sl.snapshot with
  | none => sl
  | some sn =>
    if sn.entries.getLsbD 0 then slotAfterDeparture sl { sn with entries := sn.entries >>> 1 }
    else { sl with snapshot := some { sn with entries := sn.entries >>> 1 } }

/-- The retirement of a tag leaves a slot's snapshot without members (R127). -/
def emptiedByTag (t : TagNo) (sl : Slot) : Bool :=
  match sl.snapshot with
  | none => false
  | some sn => sn.tags.getLsbD t.val && (sn.tags &&& ~~~ (1#32 <<< t.val)) == 0#32 && sn.entries == 0#16

/-- The leaving of the head entry leaves a slot's snapshot without members (R127). -/
def emptiedByEntry (sl : Slot) : Bool :=
  match sl.snapshot with
  | none => false
  | some sn => sn.entries.getLsbD 0 && sn.tags == 0#32 && sn.entries >>> 1 == 0#16

/-- The SLOT_DONE causes of a set of slots (R145): bit n is slot n (R176). -/
def doneCauses (ends : SlotNo → Bool) : CauseSet :=
  maskOf 15 fun n => if h : n < 4 then ends ⟨n, h⟩ else false

/-- The causes of a departure: the slot that the fall ends, and each slot whose snapshot it empties. -/
def departureCauses (s : State) (reported : Option SlotNo) (emptied : Slot → Bool) : CauseSet :=
  doneCauses fun k => reported == some k || emptied s.slots[k]

/-- The slots after a departure: ended OK where the fall ends a wait, else as the snapshot says (R49, R127). -/
def slotsAfterDeparture (s : State) (reported : Option SlotNo) (after : Slot → Slot) : Vector Slot 4 :=
  Vector.ofFn fun k : SlotNo => if reported = some k then endedSlot s.slots[k] .ok else after s.slots[k]

/-! ### The engine's front, arguments and refusals -/

/-- The engine's next execution is that of slot `k`, whose opcode is `op` (R141). -/
def atFront (s : State) (k : SlotNo) (rest : List SlotNo) (op : BitVec 16) : Prop :=
  s.order = k :: rest ∧ s.slots[k].opcode = op

/-- The state in which the command of slot `k` has ended or waits, and nothing else has changed yet. -/
def executed (s : State) (k : SlotNo) (rest : List SlotNo) (sl : Slot) : State :=
  { s with order := rest, slots := s.slots.set k sl }

/-- The word of a handle: bits 7:0 sequence, bits 13:8 index (R178). -/
def handleWord (i : GrantIdx) (q : Seq) : Word :=
  (0#18 ++ BitVec.ofNat 6 i.val) ++ q

/-- A grant named by the handle word of a slot's arguments: bits 13:8 the index, bits 7:0 its sequence, not 0 (R8, R179). -/
def named (s : State) (sl : Slot) (i : GrantIdx) (g : Grant) : Prop :=
  (sl.args[0].extractLsb' 8 6).toFin = i ∧ s.grants[i].grant = some g
    ∧ sl.args[0].extractLsb' 0 8 = s.grants[i].seq ∧ s.grants[i].seq ≠ 0#8

/-- No grant is named by the handle word of a slot's arguments: the index is FREE, holds another sequence, or the sequence
is 0 (R8). -/
def staleHandle (s : State) (sl : Slot) : Prop :=
  ∀ i : GrantIdx, (sl.args[0].extractLsb' 8 6).toFin = i →
    s.grants[i].grant = none ∨ sl.args[0].extractLsb' 0 8 ≠ s.grants[i].seq ∨ sl.args[0].extractLsb' 0 8 = 0#8

/-- The lease that the lease kind and period words of a slot give, running from its full period (R22, R24, R179). -/
def suppliedLease (sl : Slot) (l : Lease) : Prop :=
  let kind := sl.args[7].extractLsb' 0 8
  let period := sl.args[8].extractLsb' 0 16
  (kind = 0#8 ∧ l = .untimed)
    ∨ (kind = 1#8 ∧ period ≠ 0#16 ∧ l = .timed .absolute period (period.toNat * 100))
    ∨ (kind = 2#8 ∧ period ≠ 0#16 ∧ l = .timed .idle period (period.toNat * 100))

/-- A range is disjoint from that of every grant not in FREE but the one at `except` (R10). -/
def clearOf (s : State) (except : Option GrantIdx) (base len : Nat) : Prop :=
  ∀ j : GrantIdx, except = some j ∨ s.grants[j].grant.all (fun g =>
    decide (base + len ≤ g.localBase.toNat) || decide (g.localBase.toNat + g.cur.length ≤ base)) = true

/-- The number that a field of a word holds: `width` bits from bit `lo` up (R178). -/
def fieldOf (w : Word) (lo width : Nat) : Nat :=
  w.toNat / 2 ^ lo % 2 ^ width

/-! ### The lookup, check by check (R12, R13) -/

/-- The access that a port reads from its interface: a length field with bit 9 set is 512, else its bits 8:0 (R181). -/
def wireAccess (w : Presented) : Access :=
  let len := if w.length.toNat < 512 then w.length.toNat else 512
  match w.kind with
  | .read => .read w.addr len w.label
  | .write => .write w.addr len w.data

/-- Check 2 (R12, R13): the length is not 1 to 512, the first and last byte lie in different 4 KiB pages, or the label of a
read is in use. -/
def malformedAccess (q : Port) (a : Access) : Prop :=
  a.length = 0 ∨ 512 < a.length ∨ a.addr.toNat / 4096 ≠ (a.addr.toNat + a.length - 1) / 4096
    ∨ (a.label.any fun l => q.labels.getLsbD l.toNat) = true

/-- Whether a local address lies in the range of a grant (R9). -/
def inRange (g : Grant) (a : LocalAddr) : Bool :=
  decide (g.localBase.toNat ≤ a.toNat ∧ a.toNat < g.localBase.toNat + g.cur.length)

/-- Grant `g` at index `i`, and no other, has a range that contains the address (R15). -/
def foundAt (s : State) (a : LocalAddr) (i : GrantIdx) (g : Grant) : Prop :=
  s.grants[i].grant = some g ∧ ∀ j : GrantIdx, (s.grants[j].grant.any fun h => inRange h a) = decide (j = i)

/-- The bit of an access kind in a rights field (R178). -/
def kindBit : AccessKind → Nat
  | .read => 0
  | .write => 1

/-- The grant admits the requester and the kind (R17). -/
def allowed (g : Grant) (p : PortNo) (k : AccessKind) : Bool :=
  g.cur.clients.getLsbD p.val && g.cur.rights.getLsbD (kindBit k)

/-- An access passes the five checks and finds grant `g` at index `i` (R12). -/
def admits (s : State) (p : PortNo) (a : Access) (i : GrantIdx) (g : Grant) : Prop :=
  s.ports[p].run = .run ∧ ¬ malformedAccess s.ports[p] a ∧ foundAt s a.addr i g
    ∧ g.phase.isClosing = false ∧ allowed g p a.kind = true

/-- Checks 3 to 5 refuse an access, with the handle of the grant found for CLOSING and DENIED (R12). -/
def grantRefuses (s : State) (p : PortNo) (k : AccessKind) (a : LocalAddr) (r : Result) (h : Option Handle) : Prop :=
  ((∀ j : GrantIdx, (s.grants[j].grant.any fun g => inRange g a) = false) ∧ r = .nogrant ∧ h = none)
    ∨ ∃ i g, foundAt s a i g ∧ h = some { index := i, seq := s.grants[i].seq }
        ∧ ((g.phase.isClosing = true ∧ r = .closing)
          ∨ (g.phase.isClosing = false ∧ allowed g p k = false ∧ r = .denied))

/-- A lookup refuses an access with a result and a handle: the first check that fails gives them (R12). -/
def refuses (s : State) (p : PortNo) (a : Access) (r : Result) (h : Option Handle) : Prop :=
  (s.ports[p].run = .halted ∧ r = .halted ∧ h = none)
    ∨ (s.ports[p].run = .run ∧ malformedAccess s.ports[p] a ∧ r = .malformed ∧ h = none)
    ∨ (s.ports[p].run = .run ∧ ¬ malformedAccess s.ports[p] a ∧ grantRefuses s p a.kind a.addr r h)

/-- The host address of a local address under a grant's current generation (R18). -/
def hostOf (g : Grant) (a : LocalAddr) : HostAddr :=
  g.cur.hostBase + (a - g.localBase).setWidth 64

/-- What use does to a lease: an IDLE one goes back to its full period (R20). -/
def leaseUsed : Lease → Lease
  | .timed .idle p _ => .timed .idle p (p.toNat * 100)
  | l => l

/-- A port after a fault reaches its fault slot (R76, R78, R79). -/
def faulted (q : Port) (f : FaultRecord) : Port :=
  match q.fault with
  | none => { q with fault := some f, run := if q.policy = .halt then .halted else q.run }
  | some _ => { q with overflow := min 255 (q.overflow + 1), run := if q.policy = .halt then .halted else q.run }

/-- The cause that a fault sets: REQ_FAULT when it is stored, none when it is counted (R76, R78). -/
def faultCause (q : Port) (p : PortNo) : CauseSet :=
  if q.fault = none then 1#15 <<< (4 + p.val) else 0#15

/-- What the requester of a refused head access is answered (R70). -/
def refusalAnswer (a : Access) (r : Result) : Answer :=
  match a with
  | .read _ _ l => .readEnd l r true
  | .write _ _ _ => .writeAnswer r

/-- A port after it has refused its head access, and the causes this sets (R70, R75, R76). -/
def portRefusing (q : Port) (a : Access) (r : Result) (h : Option Handle) : Port :=
  if r = .halted then { q with head := none }
  else faulted { q with head := none }
    { result := r, kind := a.kind, addr := a.addr, length := a.length, label := a.label, handle := h,
      generation := none }

def refusalCause (q : Port) (p : PortNo) (r : Result) : CauseSet :=
  if r = .halted then 0#15 else faultCause q p

/-! ### Arbiters (R94, R96, R115, R116) -/

/-- The first eligible port, looking from the port after the last-granted one and wrapping from 7 to 0. -/
def firstAfter (last p : PortNo) (eligible : PortNo → Bool) : Prop :=
  eligible p = true ∧ ∀ d : Fin 8, d < p - (last + 1) → eligible (last + 1 + d) = false

/-- The four conditions of R94. -/
def mayRead (s : State) (p : PortNo) : Bool :=
  (s.ports[p].head.any fun a => a.kind == .read) && decide (s.ports[p].outstanding < s.ports[p].readLimit)
    && !(s.queue.any fun e => e.requester == p) && s.tags.toList.any (· == .free)

/-- The conditions of R115. -/
def mayWrite (s : State) (p : PortNo) : Bool :=
  (s.ports[p].head.any fun a => a.kind == .write) && decide (s.queue.length < 16)

/-- The lowest-numbered FREE tag (R98). -/
def lowestTag (s : State) (n : TagNo) : Prop :=
  s.tags[n] = .free ∧ ∀ m : TagNo, m < n → s.tags[m] ≠ .free

/-! ### Retirement (R77, R103) -/

/-- The host base of the live generation that a read carries (R77). -/
def liveBase (g : Grant) (n : GenNo) (base : HostAddr) : Prop :=
  (g.cur.number = n ∧ base = g.cur.hostBase)
    ∨ (g.cur.number ≠ n ∧ ∃ p, g.phase.prev = some p ∧ p.number = n ∧ base = p.hostBase)

/-- The fault record of a read that ends HOSTERR or TIMEOUT under grant `g`, whose generation has host base `base` (R76,
R77). -/
def readFault (r : ReadInfo) (res : Result) (g : Grant) (q : Seq) (base : HostAddr) : FaultRecord :=
  { result := res, kind := .read, addr := g.localBase + (r.hostAddr - base).setWidth 30, length := r.length,
    label := some r.label, handle := some { index := r.index, seq := q }, generation := some r.gen }

/-- A port after the end of one of its reads: one fewer outstanding, the label no longer in use (R73). -/
def portAfterRead (q : Port) (r : ReadInfo) : Port :=
  { q with outstanding := q.outstanding - 1, labels := q.labels &&& ~~~ (1#8 <<< r.label.toNat) }

/-- The state after the retirement of tag `n`, all of R103 as one change, but for causes: `after` is the entry it
leaves, `port` the requester's port, `beats` the data given before the end. -/
def retiredState (s : State) (n : TagNo) (r : ReadInfo) (res : Result) (after : TagEntry) (port : Port)
    (beats : List (PortNo × Answer)) : State :=
  { s with
    tags := s.tags.set n after
    grants := s.grants.set r.index (fallOutcome s.grants[r.index] r.gen).1
    slots := slotsAfterDeparture s (fallOutcome s.grants[r.index] r.gen).2 (slotAfterTag n)
    ports := if r.detached then s.ports else s.ports.set r.requester port
    answers := s.answers ++ beats ++ (if r.detached then [] else [(r.requester, .readEnd r.label res false)])
    link := { s.link with outbound := s.link.outbound.filter fun m => readTag m != some n } }

/-- The SLOT_DONE causes of the retirement of tag `n`. -/
def retirementCauses (s : State) (n : TagNo) (r : ReadInfo) : CauseSet :=
  departureCauses s (fallOutcome s.grants[r.index] r.gen).2 (emptiedByTag n)

/-! ### MODIFY (R35 to R41) -/

/-- The presence bit of a MODIFY, SET-REQUESTER or SET-TIMING field (R179). -/
def present (sl : Slot) (n : Nat) : Bool :=
  sl.args[1].getLsbD n

/-- Whether a MODIFY's presence set names a mapping field (R35). -/
def mapsAnew (sl : Slot) : Prop :=
  sl.args[1].extractLsb' 0 4 ≠ 0#4

/-- The lease and the tag after a MODIFY (R39): as supplied, else kept. -/
def leaseAndTag (sl : Slot) (g : Grant) (l : Lease) (tag : Word) : Prop :=
  (if present sl 4 then suppliedLease sl l else l = g.lease) ∧ tag = if present sl 5 then sl.args[9] else g.tag

/-- The new generation of a mapping MODIFY whose arguments are all in range (R33, R37, R40). -/
def newGeneration (sl : Slot) (g : Grant) (n : Generation) : Prop :=
  n.number = g.cur.number + 1#4 ∧ n.count = 0
    ∧ n.length = (if present sl 1 then sl.args[3].toNat else g.cur.length)
    ∧ n.hostBase = (if present sl 0 then sl.args[5] ++ sl.args[4] else g.cur.hostBase)
    ∧ n.rights = (if present sl 2 then sl.args[6].extractLsb' 0 2 else g.cur.rights)
    ∧ n.clients = (if present sl 3 then sl.args[6].extractLsb' 8 8 else g.cur.clients)
    ∧ (present sl 0 = true → n.hostBase.toNat % 4096 = 0)
    ∧ (present sl 1 = true → n.length % 4096 = 0 ∧ 4096 ≤ n.length ∧ n.length ≤ 268435456
        ∧ g.localBase.toNat + n.length ≤ 0x40000000)
    ∧ n.hostBase.toNat + n.length ≤ 2 ^ 64
    ∧ (present sl 2 = true → sl.args[6].extractLsb' 2 6 = 0#6 ∧ n.rights ≠ 0#2)
    ∧ (present sl 3 = true → n.clients ≠ 0#8)

/-- A new length passes the overlap test of R38; without one nothing is tested. -/
def lengthClear (s : State) (sl : Slot) (i : GrantIdx) (g : Grant) (n : Generation) : Prop :=
  present sl 1 = true → clearOf s (some i) g.localBase.toNat n.length

/-- No traffic is in flight under either generation (R4). -/
def noTraffic (g : Grant) : Bool :=
  g.cur.count == 0 && g.phase.prev.all fun p => p.count == 0

/-- A lease whose timer a CLOSE stops keeps its remaining time, some value above 0 (R54; log entry 12). -/
def leaseStopped : Lease → Lease
  | .untimed => .untimed
  | .timed k p r => .timed k p (max 1 r)

/-- The slots after a grant's waiting slot, if any, has ended with a status (R49). -/
def slotsReported (slots : Vector Slot 4) (w : Option SlotNo) (st : Status) : Vector Slot 4 :=
  match w with
  | some k => slots.set k (endedSlot slots[k] st)
  | none => slots

/-- The SLOT_DONE cause of a waiting slot, if any (R145). -/
def reportCause (w : Option SlotNo) : CauseSet :=
  match w with
  | some k => 1#15 <<< k.val
  | none => 0#15

/-! ### What a teardown leaves (R166) -/

/-- The state of the part after a teardown of `s`, but for the link interface. -/
structure TornDown (s t : State) : Prop where
  /-- R2, R51. -/
  grants : ∀ i : GrantIdx, t.grants[i] = if s.grants[i].grant = none then s.grants[i] else freedRecord s.grants[i]
  /-- R62. -/
  expired : t.expired = 0#64
  /-- R89. -/
  ports : ∀ p : PortNo, t.ports[p] =
    { run := .run, policy := .carryOn, readLimit := 4, outstanding := 0, labels := 0#8, head := none, fault := none,
      overflow := 0 }
  /-- R111. -/
  tags : (∀ n : TagNo, t.tags[n] = .free) ∧ t.tagLast = 7
  /-- R123. -/
  queue : t.queue = [] ∧ t.writeLast = 7
  /-- R132, R149. -/
  slots : ∀ k : SlotNo, t.slots[k] =
    { state := .idle, opcode := 0#16, args := Vector.replicate 28 0#32, result := Vector.replicate 32 0#32,
      status := .none, collided := false, snapshot := none }
  order : t.order = []
  timing : t.timing = { timeout := 16, threshold := 1, holdoff := 0 }
  /-- R163. -/
  notice : t.notice = { status := 0#15, enable := 0#15, masterEnable := false, eventCount := 0, holdoffTimer := none }
  /-- R174. -/
  outbound : t.link.outbound = []
  /-- R89, R111: a LINKDOWN end for each WAITING tag that is not detached, and no other answer. -/
  answers : ∃ ends, t.answers = s.answers ++ ends
    ∧ (∀ x ∈ ends, ∃ labels, x.2 = .linkdownEnds labels)
    ∧ ∀ (p : PortNo) (l : Label),
        (∃ labels, (p, Answer.linkdownEnds labels) ∈ ends ∧ labels.getLsbD l.toNat = true)
          ↔ ∃ n : TagNo, holdsLabel p l s.tags[n] = true
  sent : t.sent = s.sent
  lrst : t.lrst = s.lrst
  pending : t.pending = s.pending

/-! ### What power-on leaves (R166) -/

/-- The part as power-on leaves it: every value that a teardown gives, with each index at sequence 1 and the link DOWN. -/
structure PoweredOn (t : State) : Prop where
  /-- R2, R52. -/
  grants : ∀ i : GrantIdx, t.grants[i] = { seq := 1#8, grant := none }
  /-- R58. -/
  expired : t.expired = 0#64
  /-- R64, R90. -/
  ports : ∀ p : PortNo, t.ports[p] =
    { run := .run, policy := .carryOn, readLimit := 4, outstanding := 0, labels := 0#8, head := none, fault := none,
      overflow := 0 }
  /-- R93. -/
  tags : (∀ n : TagNo, t.tags[n] = .free) ∧ t.tagLast = 7
  /-- R123. -/
  queue : t.queue = [] ∧ t.writeLast = 7
  /-- R133, R150. -/
  slots : ∀ k : SlotNo, t.slots[k] =
    { state := .idle, opcode := 0#16, args := Vector.replicate 28 0#32, result := Vector.replicate 32 0#32,
      status := .none, collided := false, snapshot := none }
  order : t.order = []
  timing : t.timing = { timeout := 16, threshold := 1, holdoff := 0 }
  /-- R151. -/
  notice : t.notice = { status := 0#15, enable := 0#15, masterEnable := false, eventCount := 0, holdoffTimer := none }
  /-- R165; no credit is granted before training (R168), nothing waits to be sent (R174), messaging is off (R172). -/
  link : t.link = { up := false, postedCredit := 0, readCredit := 0, outbound := [], messaging := false }

/-! ### Time (log entries 3 and 4) -/

/-- A running timer stands at 0: its expiry must be taken before time goes on. -/
def timerDue (s : State) : Prop :=
  (∃ i : GrantIdx, ∃ g k p, s.grants[i].grant = some g ∧ g.phase.isClosing = false ∧ g.lease = .timed k p 0)
    ∨ (∃ n : TagNo, ∃ r i, s.tags[n] = .waiting r i 0)
    ∨ (∃ n : TagNo, ∃ i, s.tags[n] = .parked i 0)
    ∨ s.notice.holdoffTimer = some 0

/-- A lease with one unit less. -/
def leaseRun : Lease → Lease
  | .untimed => .untimed
  | .timed k p u => .timed k p (u - 1)

/-- A record after one unit: a lease timer runs in OPEN and DRAINING (R54). -/
def recordRun (r : Record) : Record :=
  match r.grant with
  | none => r
  | some g => { r with grant := some { g with lease := if g.phase.isClosing then g.lease else leaseRun g.lease } }

/-- A tag after one unit (R104, R105). -/
def tagRun : TagEntry → TagEntry
  | .free => .free
  | .waiting r i u => .waiting r i (u - 1)
  | .parked i u => .parked i (u - 1)

/-! ### Commands of the engine -/

/-- The state in which the command of slot `k` has ended with a status and has changed nothing else: `t` is it, with the
SLOT_DONE cause moderated. -/
def endsWith (s : State) (k : SlotNo) (rest : List SlotNo) (st : Status) (t : State) : Prop :=
  Settles s (executed s k rest (endedSlot s.slots[k] st)) (1#15 <<< k.val) t

/-- The number of a result value (R178). -/
def resultValue : Result → Nat
  | .ok => 0
  | .malformed => 1
  | .halted => 2
  | .nogrant => 3
  | .closing => 4
  | .denied => 5
  | .hosterr => 6
  | .timeout => 7
  | .linkdown => 8

/-- The word of a handle that may be absent: an absent field is written as 0 (R180). -/
def handleWordOf : Option Handle → Word
  | some h => handleWord h.index h.seq
  | none => 0#32

/-- OPEN's arguments other than its lease lie in their ranges (R22). -/
def openRanges (sl : Slot) : Prop :=
  let base := (sl.args[2].extractLsb' 0 30).toNat
  let len := sl.args[3].toNat
  let host := (sl.args[5] ++ sl.args[4]).toNat
  base % 4096 = 0 ∧ len % 4096 = 0 ∧ 4096 ≤ len ∧ len ≤ 268435456 ∧ base + len ≤ 0x40000000
    ∧ host % 4096 = 0 ∧ host + len ≤ 2 ^ 64
    ∧ sl.args[6].extractLsb' 2 6 = 0#6 ∧ sl.args[6].extractLsb' 0 2 ≠ 0#2 ∧ sl.args[6].extractLsb' 8 8 ≠ 0#8

/-- The grant that an OPEN creates, with a lease (R24). -/
def grantOpened (sl : Slot) (l : Lease) : Grant :=
  { phase := .opened
    localBase := sl.args[2].extractLsb' 0 30
    cur :=
      { number := 0#4, length := sl.args[3].toNat, hostBase := sl.args[5] ++ sl.args[4],
        rights := sl.args[6].extractLsb' 0 2, clients := sl.args[6].extractLsb' 8 8, count := 0 }
    lease := l
    waiting := none
    readCount := 0
    writeCount := 0
    tag := sl.args[9] }

/-- The lowest-numbered FREE index (R24). -/
def lowestIndex (s : State) (i : GrantIdx) : Prop :=
  s.grants[i].grant = none ∧ ∀ j : GrantIdx, j < i → s.grants[j].grant ≠ none

/-- A presence set that names some of `n` fields and nothing else (R37, R82, R147). -/
def presenceGood (sl : Slot) (n : Nat) : Prop :=
  sl.args[1] ≠ 0#32 ∧ sl.args[1].toNat < 2 ^ n

/-- The arguments of a MODIFY pass R37, for the grant that its handle names. -/
def modifyGood (sl : Slot) (g : Grant) : Prop :=
  presenceGood sl 6 ∧ (present sl 4 = true → ∃ l, suppliedLease sl l) ∧ (mapsAnew sl → ∃ n, newGeneration sl g n)

/-- The number of a close cause in a result (R178), at bits 9:8. -/
def causeWord : CloseCause → Word
  | .command => 0x100#32
  | .expired => 0x200#32

/-- The number of a timed lease's kind (R178). -/
def kindWord : TimedKind → Word
  | .absolute => 1#32
  | .idle => 2#32

/-- The index that a QUERY reads (R25): the given one in mode EXACT, the first at or above it that is not FREE in mode
NEXT. -/
def queried (s : State) (sl : Slot) (j : GrantIdx) : Prop :=
  let index : GrantIdx := (sl.args[0].extractLsb' 8 6).toFin
  let mode := sl.args[1].extractLsb' 0 8
  (mode = 0#8 ∧ j = index)
    ∨ (mode = 1#8 ∧ index ≤ j ∧ s.grants[j].grant ≠ none
        ∧ ∀ m : GrantIdx, index ≤ m → m < j → s.grants[m].grant = none)

/-- One if the first argument holds, as a bit of a report. -/
def bit (b : Bool) : Nat :=
  if b then 1 else 0

/-- The number of a grant's state (R178). -/
def stateNumber (g : Grant) : Nat :=
  match g.phase with
  | .opened => 1
  | .draining _ => 2
  | .closing _ _ => 3

/-- The number of a grant's close cause, 0 when absent (R178, R180). -/
def causeNumber (g : Grant) : Nat :=
  match g.phase with
  | .closing .command _ => 1
  | .closing .expired _ => 2
  | _ => 0

/-- The number of a lease's kind (R178), its period and its remaining time in whole ms, rounded up, and 1 or more while the
timer runs (R55, R61); 0 when absent. -/
def leaseNumbers (g : Grant) : Nat × Nat × Nat :=
  let ms := fun r : Nat => if g.phase.isClosing then (r + 99) / 100 else max 1 ((r + 99) / 100)
  match g.lease with
  | .untimed => (0, 0, 0)
  | .timed .absolute p r => (1, p.toNat, ms r)
  | .timed .idle p r => (2, p.toNat, ms r)

/-- The previous generation of a grant, when present (R1). -/
def previous (g : Grant) : Option PrevGeneration :=
  match g.phase with
  | .opened => none
  | .draining p => some p
  | .closing _ p => p

/-- The sixteen words that QUERY writes of a grant (R180), each as the sum of its fields, the width of a field giving the
modulus. -/
def grantReported (i : GrantIdx) (q : Seq) (g : Grant) (n : Nat) : Nat :=
  let old := fun f : PrevGeneration → Nat => (previous g).elim 0 f
  let (kind, period, remaining) := leaseNumbers g
  match n with
  | 0 => q.toNat + i.val * 2 ^ 8 + stateNumber g * 2 ^ 16
  | 1 => 1 + bit (previous g).isSome * 2 + bit (causeNumber g != 0) * 4 + bit (kind != 0) * 8
          + bit g.waiting.isSome * 16
  | 2 => g.localBase.toNat
  | 3 => g.cur.number.toNat + g.cur.rights.toNat * 2 ^ 8 + g.cur.clients.toNat * 2 ^ 16
  | 4 => g.cur.length % 2 ^ 32
  | 5 => g.cur.hostBase.toNat % 2 ^ 32
  | 6 => g.cur.hostBase.toNat / 2 ^ 32
  | 7 => g.cur.count % 2 ^ 6 + old (fun p => p.count % 2 ^ 6 * 2 ^ 8 + p.number.toNat * 2 ^ 16)
  | 8 => old fun p => p.length % 2 ^ 32
  | 9 => old fun p => p.hostBase.toNat % 2 ^ 32
  | 10 => old fun p => p.hostBase.toNat / 2 ^ 32
  | 11 => kind + causeNumber g * 2 ^ 8 + g.waiting.elim 0 (fun k => k.val * 2 ^ 16)
  | 12 => period + remaining % 2 ^ 16 * 2 ^ 16
  | 13 => g.readCount % 2 ^ 32
  | 14 => g.writeCount % 2 ^ 32
  | _ => g.tag.toNat

/-- The number of an access kind (R178). -/
def kindNumber : AccessKind → Nat
  | .read => 0
  | .write => 1

/-- The word at +0x80 that QUERY-REQUESTER writes (R180). -/
def portWord (q : Port) : Word :=
  BitVec.ofNat 32 (bit (q.run == .halted) + bit (q.policy == .halt) * 2 + q.readLimit % 16 * 2 ^ 8
    + q.outstanding % 16 * 2 ^ 16 + q.labels.toNat * 2 ^ 24)

/-- The result area after the words +0x84 and +0x88 that QUERY-REQUESTER writes of the head access, if any (R180). -/
def headReported (q : Port) (area : Vector Word 32) : Vector Word 32 :=
  match q.head with
  | none => area
  | some (.read a n l) =>
    (area.set 1 (BitVec.ofNat 32 (1 + l.toNat * 2 ^ 4 + n % 2 ^ 10 * 2 ^ 16))).set 2 (a.setWidth 32)
  | some (.write a n _) => (area.set 1 (BitVec.ofNat 32 (3 + n % 2 ^ 10 * 2 ^ 16))).set 2 (a.setWidth 32)

/-- The result area after the words +0x8C to +0x98 that QUERY-REQUESTER and RESUME write of the fault slot and the overflow
count (R180). -/
def faultReported (q : Port) (area : Vector Word 32) : Vector Word 32 :=
  match q.fault with
  | none => area.set 6 (BitVec.ofNat 32 (q.overflow % 2 ^ 8 * 2 ^ 16))
  | some f =>
    (((area.set 3 (BitVec.ofNat 32 (1 + resultValue f.result * 2 ^ 4 + kindNumber f.kind * 2 ^ 8
        + bit f.label.isSome * 2 ^ 9 + f.label.elim 0 (fun l => l.toNat * 2 ^ 12)
        + bit f.handle.isSome * 2 ^ 16 + bit f.generation.isSome * 2 ^ 17
        + f.generation.elim 0 (fun n => n.toNat * 2 ^ 20)))).set 4 (f.addr.setWidth 32)).set 5
      (handleWordOf f.handle)).set 6 (BitVec.ofNat 32 (f.length % 2 ^ 10 + q.overflow % 2 ^ 8 * 2 ^ 16))

/-- The port that a requester command names, in bits 2:0 of +0x38 (R179). -/
def requesterOf (sl : Slot) : PortNo :=
  (sl.args[10].extractLsb' 0 3).toFin

/-- A port whose requester starts clean: policy and read limit are kept (R85, R87). -/
def cleanPort (q : Port) : Port :=
  { q with run := .run, outstanding := 0, labels := 0#8, head := none, fault := none, overflow := 0 }

/-- A tag whose read is let go, if it is WAITING and its requester is one of those chosen (R86). -/
def letGo (chosen : PortNo → Bool) : TagEntry → TagEntry
  | .waiting r i u => .waiting (if chosen r.requester then { r with detached := true } else r) i u
  | e => e

/-- The snapshot that a FENCE takes of a requester set (R125). -/
def taken (s : State) (set : Set8) (sn : Snapshot) : Prop :=
  (∀ n : TagNo, sn.tags.getLsbD n.val = true ↔ ∃ r i u, s.tags[n] = .waiting r i u ∧ set.getLsbD r.requester.val = true)
    ∧ ∀ m : Nat, sn.entries.getLsbD m = true ↔
        m < 16 ∧ ∃ e, s.queue[m]? = some e ∧ set.getLsbD e.requester.val = true

/-- How many tags a FENCE waits for (R124). -/
def tagsIn (s : State) (set : Set8) : Nat :=
  s.tags.toList.countP fun e => match e with | .waiting r _ _ => set.getLsbD r.requester.val | _ => false

/-- How many write-queue entries a FENCE waits for (R124). -/
def entriesIn (s : State) (set : Set8) : Nat :=
  (s.queue.take 16).countP fun e => set.getLsbD e.requester.val

/-- A supplied policy and a supplied read limit are in range (R82). -/
def requesterGood (sl : Slot) : Prop :=
  presenceGood sl 2
    ∧ (present sl 0 = true → sl.args[13].extractLsb' 0 8 = 0#8 ∨ sl.args[13].extractLsb' 0 8 = 1#8)
    ∧ (present sl 1 = true → 1 ≤ (sl.args[14].extractLsb' 0 8).toNat ∧ (sl.args[14].extractLsb' 0 8).toNat ≤ 8)

/-- A read limit, supplied in range, that equals the outstanding count of a requester whose head read is eligible: it applies
only to reads not yet eligible, so the grant of that read comes first (R95, R96; log entry 21). -/
def limitMeetsEligible (s : State) (sl : Slot) (p : PortNo) : Prop :=
  requesterGood sl ∧ present sl 1 = true ∧ (sl.args[14].extractLsb' 0 8).toNat = s.ports[p].outstanding ∧ mayRead s p = true

/-- The supplied timing parameters are in range (R147). -/
def timingGood (sl : Slot) : Prop :=
  presenceGood sl 3
    ∧ (present sl 0 = true → 1 ≤ (sl.args[15].extractLsb' 0 8).toNat ∧ (sl.args[15].extractLsb' 0 8).toNat ≤ 64)
    ∧ (present sl 1 = true → 1 ≤ (sl.args[16].extractLsb' 0 16).toNat ∧ (sl.args[16].extractLsb' 0 16).toNat ≤ 255)
    ∧ (present sl 2 = true → (sl.args[17].extractLsb' 0 16).toNat ≤ 255)

/-- The timing parameters after a SET-TIMING: as supplied, else kept (R147). -/
def timingAfter (sl : Slot) (t : Timing) : Timing :=
  { timeout := if present sl 0 then (sl.args[15].extractLsb' 0 8).toNat else t.timeout
    threshold := if present sl 1 then (sl.args[16].extractLsb' 0 16).toNat else t.threshold
    holdoff := if present sl 2 then (sl.args[17].extractLsb' 0 16).toNat else t.holdoff }

/-! ### Other terms -/

/-- A completion that fails a read with some bytes still to come (R102, R173): an error status, no byte, more bytes than
remain, or more than 512. -/
def failing (r : ReadInfo) : Completion → Prop
  | .success data => data.length = 0 ∨ r.length < r.received + data.length ∨ 512 < data.length
  | .unsupported => True
  | .otherError => True

/-- The read and write counts of a grant are at most 4,294,967,295 (R19). -/
def CountersBounded (s : State) : Prop :=
  ∀ i : GrantIdx, ∀ g, s.grants[i].grant = some g → g.readCount ≤ 4294967295 ∧ g.writeCount ≤ 4294967295

/-- How many reads and writes a grant counts in flight, under both generations. -/
def inFlight (g : Grant) : Nat :=
  g.cur.count + (previous g).elim 0 (·.count)

/-- A slot is busy in PENDING and WAITING, else free (R133). -/
def busy (sl : Slot) : Prop :=
  sl.state = .pending ∨ sl.state = .waiting

/-- A slot that waits with a FENCE: it holds a snapshot (R133). -/
def waitsWithFence (sl : Slot) : Prop :=
  sl.state = .waiting ∧ sl.snapshot ≠ none

/-- The number of a slot state (R177). -/
def slotStateNumber : SlotState → Nat
  | .idle => 0
  | .pending => 1
  | .waiting => 2
  | .done => 3

/-- The number of a status code (R177). -/
def statusNumber : Status → Nat
  | .none => 0
  | .ok => 1
  | .overtaken => 2
  | .cancelled => 3
  | .badop => 4
  | .badarg => 5
  | .overlap => 6
  | .full => 7
  | .stale => 8
  | .state => 9
  | .draining => 10
  | .limit => 11

/-- An offset that R176 leaves undefined: outside the words and the slots, or the two words of a slot between its status
word and its argument area. -/
def undefinedOffset (o : BitVec 14) : Prop :=
  (0x001C ≤ o.toNat ∧ o.toNat < 0x0100) ∨ (0x0120 ≤ o.toNat ∧ o.toNat < 0x0200)
    ∨ (0x0208 ≤ o.toNat ∧ o.toNat < 0x1000) ∨ 0x1400 ≤ o.toNat
    ∨ ∃ k : SlotNo, 0x1008 + 0x100 * k.val ≤ o.toNat ∧ o.toNat < 0x1010 + 0x100 * k.val

/-- An offset of a word that the host may only read: the identity words, status, pending and the moderation state word, and
the status word and the result area of a slot (R176, R177). -/
def readOnlyOffset (o : BitVec 14) : Prop :=
  o.toNat < 0x001C ∨ (0x0100 ≤ o.toNat ∧ o.toNat < 0x0104) ∨ (0x0108 ≤ o.toNat ∧ o.toNat < 0x010C)
    ∨ (0x011C ≤ o.toNat ∧ o.toNat < 0x0120)
    ∨ ∃ k : SlotNo, (0x1004 + 0x100 * k.val ≤ o.toNat ∧ o.toNat < 0x1008 + 0x100 * k.val)
        ∨ (0x1080 + 0x100 * k.val ≤ o.toNat ∧ o.toNat < 0x1100 + 0x100 * k.val)

end Sys2Proof.Safety
end

