-- ==== Sys2Proof/WellFormed.lean ====
section
/-! DEFINITION. Which terms of Instr stand for something that can reach the part. Widths are in the types; the
checks here are the relations between operands that the spec states. No meaning tests them: a write's length alone is
tested (R13), and a window write goes to the owner of its word whatever row it is written as (R167). -/

namespace Sys2Proof

/-- What each command's operands must satisfy. -/
def Instr.wellFormed : Instr → Bool
  -- A WRITE carries as many bytes as its length says, a READ none (R13, R65).
  | .presentAccess _ a =>
    match a.kind with
    | .read => a.data.isEmpty
    | .write => a.data.length == Machine.lengthField a.length
  -- A submission is a write of any value but the CANCEL code, which has a row of its own (R138).
  | .submission _ v => v.extractLsb' 0 16 != Config.cancelCode
  -- A write lies in the window, covers a byte at least, and has no row of its own if it is taken (R167).
  | .hostWindowWrite off width en _ =>
    decide (1 ≤ width) && decide (off.toNat + width ≤ Config.windowBytes)
      && !(Machine.writeTaken off width en && Machine.hasOwnRow off)
  | .powerOn | .trainingComplete _ _ | .linkLost | .hotReset | .functionReset | .creditGrant _ _
  | .lrstAssertion | .lrstDeassertion | .tagGrant | .writeGrant | .writeLeaving | .memoryReadSend
  | .completionPart _ _ | .deadlineExpiry _ | .parkPeriodEnd _ | .leaseExpiry _
  | .openGrant | .modify | .close | .renew | .query | .lookup | .fence
  | .setRequester | .queryRequester | .resume | .resetRequester | .setTiming | .badop
  | .cancel _ _ | .acknowledge _ | .enable _ | .setEnable _ | .clearEnable _ | .masterEnable _
  | .expiredSetClear _ _ | .holdoffExpiry | .messageSend _ => true

end Sys2Proof
end

