-- ==== Sys2Proof/Certificates/Slice0/Obligations.lean ====
section
/-! DEFINITION. The statements about the model. A statement about a command says that `exec` answers a next state and gives
that state whole: `Settles s x c t` says that `t` is `x` but for the notice unit and the waiting interrupt message, and that
these follow from the causes `c` that the change sets. Everything that `x` does not name is unchanged. -/

open Sys2Proof Sys2Proof.Machine Sys2Proof.Safety

/-! ## The block as a whole -/

/-- The block takes its commands from the front of its queue. -/
def Obligations.StepRunsFrontCommand : Prop :=
  ∀ (c : Instr) (rest : List Instr) (s : State), s.pending = c :: rest → step s = exec c { s with pending := rest }

/-- The model's choice (log entry 3), not a rule of the spec: on an empty queue one unit of 10 µs passes, unless a running
timer stands at 0. Every running timer falls (R54, R104, R105, R159) and nothing else changes. -/
def Obligations.EmptyQueueLetsTimePass : Prop :=
  ∀ s : State, s.pending = [] →
    (timerDue s → step s = .next s)
      ∧ (¬ timerDue s → step s = .next { s with
          grants := Vector.ofFn fun i : GrantIdx => recordRun s.grants[i]
          tags := Vector.ofFn fun n : TagNo => tagRun s.tags[n]
          notice := { s.notice with holdoffTimer := s.notice.holdoffTimer.map fun u => u - 1 } })

/-- No command stops the part, none touches the queue of commands, and answers given and requests sent stay so (R66, R67,
R169: no later event recalls them). -/
def Obligations.CommandsAnswerAndRecallNothing : Prop :=
  ∀ (c : Instr) (s : State), ∃ t, exec c s = .next t ∧ t.pending = s.pending
    ∧ (∃ more, t.answers = s.answers ++ more) ∧ ∃ more, t.sent = s.sent ++ more

/-! ## Power-on, the link and teardown -/

/-- POWER_ON gives every block its default values, and so does the state in which the model starts (R166). That the LRST
level, the answers given, the requests sent and the queue are kept is the model's choice (log entries 1 and 5). -/
def Obligations.PowerOnGivesDefaults : Prop :=
  PoweredOn State.reset
    ∧ ∀ s : State, ∃ t, exec .powerOn s = .next t ∧ PoweredOn t
        ∧ t.lrst = s.lrst ∧ t.answers = s.answers ∧ t.sent = s.sent ∧ t.pending = s.pending

/-- TRAINING_COMPLETE in DOWN brings the link UP with the credit advertised (R165, R168); CREDIT_GRANT in UP adds to both
amounts (R168); LRST_DEASSERTION releases the line and changes nothing else (R88). -/
def Obligations.TrainingCreditAndLrstRelease : Prop :=
  (∀ (posted read : Nat) (s : State), s.link.up = false →
      exec (.trainingComplete posted read) s
        = .next { s with link := { s.link with up := true, postedCredit := posted, readCredit := read } })
    ∧ (∀ (posted read : Nat) (s : State), s.link.up = true →
      exec (.creditGrant posted read) s
        = .next { s with link := { s.link with
            postedCredit := s.link.postedCredit + posted, readCredit := s.link.readCredit + read } })
    ∧ ∀ s : State, exec .lrstDeassertion s = .next { s with lrst := false }

/-- Each of the three causes of a teardown, taken with the link UP, is one change across the part. LINK_LOST and HOT_RESET
leave the link DOWN with no credit, FUNCTION_RESET leaves it UP with its credit (R165, R166, R168). -/
def Obligations.TeardownReturnsDefaults : Prop :=
  ∀ s : State, s.link.up = true →
    (∀ c : Instr, c = .linkLost ∨ c = .hotReset → ∃ t, exec c s = .next t ∧ TornDown s t
        ∧ t.link = { up := false, postedCredit := 0, readCredit := 0, outbound := [], messaging := false })
      ∧ ∃ t, exec .functionReset s = .next t ∧ TornDown s t
        ∧ t.link = { s.link with outbound := [], messaging := false }

/-- An event of the link that cannot move it changes nothing, and nothing of the host reaches the part while the link is
DOWN (R165). That TRAINING_COMPLETE in UP and CREDIT_GRANT or FUNCTION_RESET in DOWN, which the spec says or implies cannot
arise, change nothing is the model's choice (log entries 2 and 10). -/
def Obligations.NothingReachesThePartWhileDown : Prop :=
  (∀ (s : State) (c : Instr), s.link.up = false →
      (c = .linkLost ∨ c = .hotReset ∨ c = .functionReset ∨ (∃ p r, c = .creditGrant p r)
        ∨ (∃ n x, c = .completionPart n x) ∨ (∃ k v, c = .submission k v) ∨ (∃ k u, c = .cancel k u)
        ∨ (∃ o w e v, c = .hostWindowWrite o w e v) ∨ (∃ v, c = .acknowledge v) ∨ (∃ v, c = .enable v)
        ∨ (∃ v, c = .setEnable v) ∨ (∃ v, c = .clearEnable v) ∨ (∃ v, c = .masterEnable v)
        ∨ (∃ w v, c = .expiredSetClear w v) ∨ c = .writeLeaving ∨ c = .memoryReadSend ∨ ∃ m, c = .messageSend m) →
      exec c s = .next s)
    ∧ ∀ (s : State) (p r : Nat), s.link.up = true → exec (.trainingComplete p r) s = .next s

/-- A memory read at the front of the outbound list is sent when the link is UP and one unit of read credit is held, and
waits for credit otherwise (R168, R169). -/
def Obligations.MemoryReadSentOnCredit : Prop :=
  ∀ (s : State) (n : TagNo) (a : HostAddr) (len : Nat) (rest : List Request),
    s.link.up = true → s.link.outbound = .memRead n a len :: rest →
    (1 ≤ s.link.readCredit →
        exec .memoryReadSend s = .next { s with
          link := { s.link with outbound := rest, readCredit := s.link.readCredit - 1 }
          sent := s.sent ++ [.memRead n a len] })
      ∧ (s.link.readCredit = 0 → exec .memoryReadSend s = .next s)

/-- An interrupt message at the front is removed unsent when messaging is disabled as it reaches the front; else it is sent for
two units of posted-write credit, and waits without them, whatever the enable becomes meanwhile (R168, R169, R172). That the
command carries the enable, which the state holds once read until the message has left, is the model's choice (log entry 9). -/
def Obligations.MessageSentOnCredit : Prop :=
  ∀ (s : State) (rest : List Request), s.link.up = true → s.link.outbound = .message :: rest →
    (s.link.messaging = false →
        exec (.messageSend false) s = .next { s with link := { s.link with outbound := rest } })
      ∧ ∀ m : Bool, s.link.messaging = true ∨ m = true →
        (2 ≤ s.link.postedCredit →
            exec (.messageSend m) s = .next { s with
              link := { s.link with
                outbound := rest, messaging := false, postedCredit := s.link.postedCredit - 2 }
              sent := s.sent ++ [.message] })
          ∧ (s.link.postedCredit < 2 →
            exec (.messageSend m) s = .next { s with link := { s.link with messaging := true } })

/-! ## The ports and their arbiters -/

/-- R87, whole: assertion of LRST does to every requester what RESET-REQUESTER does, and nothing else. -/
def Obligations.LrstCleansEveryRequester : Prop :=
  ∀ s : State, exec .lrstAssertion s = .next { s with
    lrst := true
    ports := Vector.ofFn fun p : PortNo => cleanPort s.ports[p]
    tags := Vector.ofFn fun n : TagNo => letGo (fun _ => true) s.tags[n] }

/-- A presented access that passes its probe becomes the head access and waits as a candidate (R70). -/
def Obligations.PassingProbeLeavesCandidate : Prop :=
  ∀ (s : State) (p : PortNo) (w : Presented) (i : GrantIdx) (g : Grant),
    s.lrst = false → s.ports[p].head = none → admits s p (wireAccess w) i g →
      exec (.presentAccess p w) s
        = .next { s with ports := s.ports.set p { s.ports[p] with head := some (wireAccess w) } }

/-- A presented access that its probe refuses is answered at once, leaves the head absent, and reaches the fault slot unless
the result is HALTED (R70, R75, R76, R78, R79). -/
def Obligations.RefusedProbeAnswersAndCaptures : Prop :=
  ∀ (s : State) (p : PortNo) (w : Presented) (r : Result) (h : Option Handle),
    s.lrst = false → s.ports[p].head = none → refuses s p (wireAccess w) r h →
      ∃ t, exec (.presentAccess p w) s = .next t
        ∧ Settles s
            { s with
              ports := s.ports.set p (portRefusing s.ports[p] (wireAccess w) r h)
              answers := s.answers ++ [(p, refusalAnswer (wireAccess w) r)] }
            (refusalCause s.ports[p] p r) t

/-- A granted head read that its effective lookup admits is issued into the lowest FREE tag, in one change with the effects
of the lookup on its grant (R19, R20, R94, R96, R98, R170). -/
def Obligations.TagGrantIssuesRead : Prop :=
  ∀ (s : State) (p : PortNo) (n : TagNo) (a : LocalAddr) (len : Nat) (l : Label) (i : GrantIdx) (g : Grant),
    firstAfter s.tagLast p (mayRead s) → s.ports[p].head = some (.read a len l) → lowestTag s n →
    admits s p (.read a len l) i g →
      exec .tagGrant s = .next { s with
        tagLast := p
        grants := s.grants.set i { s.grants[i] with grant := some { g with
          cur := { g.cur with count := g.cur.count + 1 }
          lease := leaseUsed g.lease
          readCount := min 4294967295 (g.readCount + 1) } }
        tags := s.tags.set n (.waiting
          { requester := p, label := l, detached := false, index := i, gen := g.cur.number, hostAddr := hostOf g a,
            length := len, received := 0 }
          s.timing.timeout (s.timing.timeout * 100))
        ports := s.ports.set p { s.ports[p] with
          head := none, outstanding := s.ports[p].outstanding + 1, labels := s.ports[p].labels ||| 1#8 <<< l.toNat }
        answers := s.answers ++ [(p, .readTaken l)]
        link := { s.link with outbound := s.link.outbound ++ [.memRead n (hostOf g a) len] } }

/-- A granted head write that its effective lookup admits joins the tail of the write queue and is answered OK, in one change
with the effects of the lookup on its grant (R19, R20, R115 to R117). -/
def Obligations.WriteGrantAcceptsWrite : Prop :=
  ∀ (s : State) (p : PortNo) (a : LocalAddr) (len : Nat) (data : List Byte) (i : GrantIdx) (g : Grant),
    firstAfter s.writeLast p (mayWrite s) → s.ports[p].head = some (.write a len data) →
    admits s p (.write a len data) i g →
      exec .writeGrant s = .next { s with
        writeLast := p
        grants := s.grants.set i { s.grants[i] with grant := some { g with
          cur := { g.cur with count := g.cur.count + 1 }
          lease := leaseUsed g.lease
          writeCount := min 4294967295 (g.writeCount + 1) } }
        queue := s.queue ++ [
          { requester := p, index := i, gen := g.cur.number, hostAddr := hostOf g a, length := len, data := data }]
        ports := s.ports.set p { s.ports[p] with head := none }
        answers := s.answers ++ [(p, .writeAnswer .ok)] }

/-- A grant of the tag allocator or of the write arbiter whose effective lookup refuses the access uses the port's turn and
answers and captures as a refused probe does; nothing else changes (R71, R97, R117). -/
def Obligations.RefusedGrantUsesTurn : Prop :=
  ∀ (s : State) (p : PortNo) (a : Access) (r : Result) (h : Option Handle),
    s.ports[p].head = some a → refuses s p a r h →
    (a.kind = .read → firstAfter s.tagLast p (mayRead s) →
        ∃ t, exec .tagGrant s = .next t
          ∧ Settles s
              { s with
                tagLast := p
                ports := s.ports.set p (portRefusing s.ports[p] a r h)
                answers := s.answers ++ [(p, refusalAnswer a r)] }
              (refusalCause s.ports[p] p r) t)
      ∧ (a.kind = .write → firstAfter s.writeLast p (mayWrite s) →
        ∃ t, exec .writeGrant s = .next t
          ∧ Settles s
              { s with
                writeLast := p
                ports := s.ports.set p (portRefusing s.ports[p] a r h)
                answers := s.answers ++ [(p, refusalAnswer a r)] }
              (refusalCause s.ports[p] p r) t)

/-! ## The write queue and the read unit -/

/-- The head entry leaves when the link is UP and the credit for a write of its length is held: its memory write is sent, its
count falls with the effects of R31, and it leaves every snapshot (R118, R126, R127, R169, R171). Without the credit it
stays. -/
def Obligations.HeadWriteLeavesOnCredit : Prop :=
  ∀ (s : State) (e : QueueEntry) (rest : List QueueEntry), s.queue = e :: rest → s.link.up = true →
    (1 + (e.length + 15) / 16 ≤ s.link.postedCredit →
        ∃ t, exec .writeLeaving s = .next t
          ∧ Settles s
              { s with
                queue := rest
                link := { s.link with postedCredit := s.link.postedCredit - (1 + (e.length + 15) / 16) }
                sent := s.sent ++ [.memWrite e.hostAddr e.length e.data]
                grants := s.grants.set e.index (fallOutcome s.grants[e.index] e.gen).1
                slots := slotsAfterDeparture s (fallOutcome s.grants[e.index] e.gen).2 slotAfterEntry }
              (departureCauses s (fallOutcome s.grants[e.index] e.gen).2 emptiedByEntry) t)
      ∧ (s.link.postedCredit < 1 + (e.length + 15) / 16 → exec .writeLeaving s = .next s)

/-- A SUCCESS part that leaves its read unfinished gives a beat, unless the read is detached, and adds its bytes to those
received; the deadline is not touched (R100). -/
def Obligations.UnfinishedPartGivesBeat : Prop :=
  ∀ (s : State) (n : TagNo) (r : ReadInfo) (i u : Nat) (data : List Byte),
    s.link.up = true → s.tags[n] = .waiting r i u → 1 ≤ data.length → data.length ≤ 512 →
    r.received + data.length < r.length →
      exec (.completionPart n.val (.success data)) s = .next { s with
        tags := s.tags.set n (.waiting { r with received := r.received + data.length } i u)
        answers := s.answers ++ if r.detached then [] else [(r.requester, .beat r.label r.received data)] }

/-- The SUCCESS part that completes its read gives its beat and then retires the read with OK (R101, R103). -/
def Obligations.LastPartRetiresRead : Prop :=
  ∀ (s : State) (n : TagNo) (r : ReadInfo) (i u : Nat) (data : List Byte),
    s.link.up = true → s.tags[n] = .waiting r i u → 1 ≤ data.length → data.length ≤ 512 →
    r.received + data.length = r.length →
      ∃ t, exec (.completionPart n.val (.success data)) s = .next t
        ∧ Settles s
            (retiredState s n r .ok .free (portAfterRead s.ports[r.requester] r)
              (if r.detached then [] else [(r.requester, .beat r.label r.received data)]))
            (retirementCauses s n r) t

/-- A failing part retires its read with HOSTERR: no beat, and a fault captured with the handle, the generation and the local
address of R77 unless the read is detached (R102, R103, R75 to R79). -/
def Obligations.FailingPartRetiresWithHosterr : Prop :=
  ∀ (s : State) (n : TagNo) (r : ReadInfo) (i u : Nat) (x : Completion) (g : Grant) (base : HostAddr),
    s.link.up = true → s.tags[n] = .waiting r i u → failing r x →
    s.grants[r.index].grant = some g → liveBase g r.gen base →
      ∃ t, exec (.completionPart n.val x) s = .next t
        ∧ Settles s
            (retiredState s n r .hosterr .free
              (faulted (portAfterRead s.ports[r.requester] r)
                (readFault r .hosterr g s.grants[r.index].seq base)) [])
            (retirementCauses s n r ||| if r.detached then 0#15 else faultCause s.ports[r.requester] r.requester) t

/-- R107 and R109, whole: any part for a PARKED tag, the end of its park period and a teardown make the tag FREE, the first
two changing nothing else; a part for a FREE tag or for a tag above 31 sets STRAY_COMPLETION and changes nothing else. -/
def Obligations.ParkedAndStrayParts : Prop :=
  (∀ (s : State) (n : TagNo) (i u : Nat), s.tags[n] = .parked i u →
      (u = 0 → exec (.parkPeriodEnd n) s = .next { s with tags := s.tags.set n .free })
        ∧ (s.link.up = true →
            (∀ x, exec (.completionPart n.val x) s = .next { s with tags := s.tags.set n .free })
              ∧ ∀ c : Instr, c = .linkLost ∨ c = .hotReset ∨ c = .functionReset →
                  ∃ t, exec c s = .next t ∧ t.tags[n] = .free))
    ∧ ∀ (s : State) (n : Nat) (x : Completion), s.link.up = true →
        (∀ h : n < 32, s.tags[n] = .free) →
          ∃ t, exec (.completionPart n x) s = .next t ∧ Settles s s 0x4000#15 t

/-- When the time remaining of a WAITING tag has reached 0, its read is retired with TIMEOUT and the tag is parked for its issue
timeout (R103, R105). -/
def Obligations.DeadlineParksTag : Prop :=
  ∀ (s : State) (n : TagNo) (r : ReadInfo) (i : Nat) (g : Grant) (base : HostAddr),
    s.tags[n] = .waiting r i 0 → s.grants[r.index].grant = some g → liveBase g r.gen base →
      ∃ t, exec (.deadlineExpiry n) s = .next t
        ∧ Settles s
            (retiredState s n r .timeout (.parked i (i * 100))
              (faulted (portAfterRead s.ports[r.requester] r)
                (readFault r .timeout g s.grants[r.index].seq base)) [])
            (retirementCauses s n r ||| if r.detached then 0#15 else faultCause s.ports[r.requester] r.requester) t

/-! ## Leases and the holdoff timer -/

/-- The expiry of a running lease whose remaining time has reached 0 is one change: CLOSING with cause EXPIRED, or freed at once
without traffic; a waiting MODIFY ends OVERTAKEN; the index joins the expired set; GRANT_EXPIRED is set (R56). With time left,
after a restart for one, no expiry occurs (R21, R43, R54, R61). -/
def Obligations.LeaseExpiryClosesGrant : Prop :=
  ∀ (s : State) (i : GrantIdx) (g : Grant) (kind : TimedKind) (p : BitVec 16) (u : Nat),
    s.grants[i].grant = some g → g.phase.isClosing = false → g.lease = .timed kind p u →
      (u = 0 →
        ∃ t, exec (.leaseExpiry i) s = .next t
          ∧ Settles s
              { s with
                grants := s.grants.set i
                  (if noTraffic g then freedRecord s.grants[i]
                    else { s.grants[i] with grant := some { g with
                      phase := .closing .expired (previous g), lease := .timed kind p 0, waiting := none } })
                slots := slotsReported s.slots g.waiting .overtaken
                expired := s.expired ||| 1#64 <<< i.val }
              (reportCause g.waiting ||| 0x1000#15) t)
        ∧ (u ≠ 0 → exec (.leaseExpiry i) s = .next s)

/-- The expiry of the holdoff timer, when no time is left in it, stops it and makes a send attempt when the count is 1 or
more: with master enable on the count becomes 0 and a message is handed over if pending is not empty, merging into one that
waits; with it off the count is kept (R158, R159, R172). -/
def Obligations.HoldoffExpiryAttempts : Prop :=
  ∀ s : State, s.notice.holdoffTimer = some 0 →
    (s.notice.eventCount = 0 ∨ s.notice.masterEnable = false →
        exec .holdoffExpiry s = .next { s with notice := { s.notice with holdoffTimer := none } })
      ∧ (1 ≤ s.notice.eventCount → s.notice.masterEnable = true →
        exec .holdoffExpiry s = .next { s with
          notice := { s.notice with eventCount := 0, holdoffTimer := none }
          link := { s.link with outbound :=
            if s.notice.status &&& s.notice.enable = 0#15 ∨ Request.message ∈ s.link.outbound then s.link.outbound
            else s.link.outbound ++ [.message] } })

/-! ## The commands of the grant table -/

/-- An OPEN whose arguments are in range, whose range is clear and that finds a FREE index creates the grant at the lowest
one and ends OK with its handle (R22 to R24, R141). -/
def Obligations.OpenCreatesGrant : Prop :=
  ∀ (s : State) (k : SlotNo) (rest : List SlotNo) (l : Lease) (i : GrantIdx),
    atFront s k rest 0x0001#16 → openRanges s.slots[k] → suppliedLease s.slots[k] l →
    clearOf s none (s.slots[k].args[2].extractLsb' 0 30).toNat s.slots[k].args[3].toNat → lowestIndex s i →
      ∃ t, exec .openGrant s = .next t
        ∧ Settles s
            { executed s k rest { endedSlot s.slots[k] .ok with
                result := s.slots[k].result.set 0 (handleWord i s.grants[i].seq) } with
              grants := s.grants.set i { s.grants[i] with grant := some (grantOpened s.slots[k] l) } }
            (1#15 <<< k.val) t

/-- An OPEN is refused with BADARG for an argument out of range, else with OVERLAP, else with FULL, and changes nothing
(R22, R23). -/
def Obligations.OpenRefusals : Prop :=
  ∀ (s : State) (k : SlotNo) (rest : List SlotNo), atFront s k rest 0x0001#16 →
    (¬ (openRanges s.slots[k] ∧ ∃ l, suppliedLease s.slots[k] l) →
        ∃ t, exec .openGrant s = .next t ∧ endsWith s k rest .badarg t)
      ∧ (openRanges s.slots[k] → (∃ l, suppliedLease s.slots[k] l) →
          (¬ clearOf s none (s.slots[k].args[2].extractLsb' 0 30).toNat s.slots[k].args[3].toNat →
              ∃ t, exec .openGrant s = .next t ∧ endsWith s k rest .overlap t)
            ∧ (clearOf s none (s.slots[k].args[2].extractLsb' 0 30).toNat s.slots[k].args[3].toNat →
                (∀ i : GrantIdx, s.grants[i].grant ≠ none) →
              ∃ t, exec .openGrant s = .next t ∧ endsWith s k rest .full t))

/-- A lease-or-tag MODIFY that passes R36 changes the grant in place and ends OK with the handle and the current generation
number (R39). -/
def Obligations.LeaseOrTagModify : Prop :=
  ∀ (s : State) (k : SlotNo) (rest : List SlotNo) (i : GrantIdx) (g : Grant) (l : Lease) (tag : Word),
    atFront s k rest 0x0002#16 → named s s.slots[k] i g → g.phase.isClosing = false →
    presenceGood s.slots[k] 6 → ¬ mapsAnew s.slots[k] → leaseAndTag s.slots[k] g l tag →
      ∃ t, exec .modify s = .next t
        ∧ Settles s
            { executed s k rest { endedSlot s.slots[k] .ok with
                result := (s.slots[k].result.set 0 (handleWord i s.grants[i].seq)).set 3 (g.cur.number.setWidth 32) } with
              grants := s.grants.set i { s.grants[i] with grant := some { g with lease := l, tag := tag } } }
            (1#15 <<< k.val) t

/-- A mapping MODIFY of a grant in OPEN that passes R36 forms a new generation. With no traffic in flight it ends OK at once
(R40); with traffic the old generation becomes the previous one, the grant drains and the slot waits (R41, R34, R6). -/
def Obligations.MappingModify : Prop :=
  ∀ (s : State) (k : SlotNo) (rest : List SlotNo) (i : GrantIdx) (g : Grant) (n : Generation) (l : Lease) (tag : Word),
    atFront s k rest 0x0002#16 → named s s.slots[k] i g → g.phase = .opened →
    presenceGood s.slots[k] 6 → mapsAnew s.slots[k] → newGeneration s.slots[k] g n →
    leaseAndTag s.slots[k] g l tag → lengthClear s s.slots[k] i g n →
    (g.cur.count = 0 →
        ∃ t, exec .modify s = .next t
          ∧ Settles s
              { executed s k rest { endedSlot s.slots[k] .ok with
                  result := (s.slots[k].result.set 0 (handleWord i s.grants[i].seq)).set 3 (n.number.setWidth 32) } with
                grants := s.grants.set i { s.grants[i] with grant := some { g with cur := n, lease := l, tag := tag } } }
              (1#15 <<< k.val) t)
      ∧ (g.cur.count ≠ 0 →
        exec .modify s = .next
          { executed s k rest { s.slots[k] with
              state := .waiting
              result := (s.slots[k].result.set 0 (handleWord i s.grants[i].seq)).set 3 (n.number.setWidth 32) } with
            grants := s.grants.set i { s.grants[i] with grant := some { g with
              phase := .draining
                { number := g.cur.number, length := g.cur.length, hostBase := g.cur.hostBase, count := g.cur.count }
              cur := n, lease := l, tag := tag, waiting := some k } } })

/-- A MODIFY takes its checks in order: STALE, STATE, DRAINING, BADARG, OVERLAP; a refused one changes nothing (R8, R36 to
R38). -/
def Obligations.ModifyRefusals : Prop :=
  ∀ (s : State) (k : SlotNo) (rest : List SlotNo), atFront s k rest 0x0002#16 →
    (staleHandle s s.slots[k] → ∃ t, exec .modify s = .next t ∧ endsWith s k rest .stale t)
      ∧ ∀ (i : GrantIdx) (g : Grant), named s s.slots[k] i g →
        (g.phase.isClosing = true → ∃ t, exec .modify s = .next t ∧ endsWith s k rest .state t)
          ∧ (g.phase.isClosing = false → g.phase ≠ .opened → mapsAnew s.slots[k] →
              ∃ t, exec .modify s = .next t ∧ endsWith s k rest .draining t)
          ∧ (g.phase = .opened ∨ (g.phase.isClosing = false ∧ ¬ mapsAnew s.slots[k]) →
              (¬ modifyGood s.slots[k] g → ∃ t, exec .modify s = .next t ∧ endsWith s k rest .badarg t)
                ∧ (modifyGood s.slots[k] g → present s.slots[k] 1 = true →
                    ¬ clearOf s (some i) g.localBase.toNat s.slots[k].args[3].toNat →
                  ∃ t, exec .modify s = .next t ∧ endsWith s k rest .overlap t))

/-- A CLOSE of a grant in OPEN or DRAINING overtakes a waiting MODIFY. With no traffic in flight the grant is freed and the
slot ends OK; else the grant is CLOSING with cause COMMAND, its lease timer stopped with some time left, and the slot waits
(R44 to R46, R54). A grant waits on no slot that is at the engine's front, which is PENDING (R6, R134). That a timer at 0,
whose expiry has not been taken, has a unit left is the model's reading (log entry 12). -/
def Obligations.CloseFreesOrWaits : Prop :=
  ∀ (s : State) (k : SlotNo) (rest : List SlotNo) (i : GrantIdx) (g : Grant),
    atFront s k rest 0x0003#16 → named s s.slots[k] i g → g.phase.isClosing = false → g.waiting ≠ some k →
    (noTraffic g = true →
        ∃ t, exec .close s = .next t
          ∧ Settles s
              { s with
                order := rest
                slots := (slotsReported s.slots g.waiting .overtaken).set k { endedSlot s.slots[k] .ok with
                  result := (s.slots[k].result.set 0 (handleWord i s.grants[i].seq)).set 11 (causeWord .command) }
                grants := s.grants.set i (freedRecord s.grants[i]) }
              (reportCause g.waiting ||| 1#15 <<< k.val) t)
      ∧ (noTraffic g = false →
        ∃ t, exec .close s = .next t
          ∧ Settles s
              { s with
                order := rest
                slots := (slotsReported s.slots g.waiting .overtaken).set k { s.slots[k] with
                  state := .waiting
                  result := (s.slots[k].result.set 0 (handleWord i s.grants[i].seq)).set 11 (causeWord .command) }
                grants := s.grants.set i { s.grants[i] with grant := some { g with
                  phase := .closing .command (previous g), lease := leaseStopped g.lease, waiting := some k } } }
              (reportCause g.waiting) t)

/-- A CLOSE on a CLOSING grant adopts the closing when no slot waits on it, and is refused with STATE when one does; a stale
handle is refused with STALE (R44, R47). -/
def Obligations.CloseAdoptsOrIsRefused : Prop :=
  ∀ (s : State) (k : SlotNo) (rest : List SlotNo), atFront s k rest 0x0003#16 →
    (staleHandle s s.slots[k] → ∃ t, exec .close s = .next t ∧ endsWith s k rest .stale t)
      ∧ ∀ (i : GrantIdx) (g : Grant) (c : CloseCause) (p : Option PrevGeneration),
        named s s.slots[k] i g → g.phase = .closing c p →
        (g.waiting ≠ none → ∃ t, exec .close s = .next t ∧ endsWith s k rest .state t)
          ∧ (g.waiting = none →
            exec .close s = .next
              { executed s k rest { s.slots[k] with
                  state := .waiting
                  result := (s.slots[k].result.set 0 (handleWord i s.grants[i].seq)).set 11 (causeWord c) } with
                grants := s.grants.set i { s.grants[i] with grant := some { g with waiting := some k } } })

/-- RENEW restarts a timed lease at the period in force and ends OK with the handle, the kind and the period; it is refused
with STALE, and with STATE for a grant in CLOSING or with lease kind NONE (R60). -/
def Obligations.RenewRestartsLease : Prop :=
  ∀ (s : State) (k : SlotNo) (rest : List SlotNo), atFront s k rest 0x0004#16 →
    (staleHandle s s.slots[k] → ∃ t, exec .renew s = .next t ∧ endsWith s k rest .stale t)
      ∧ ∀ (i : GrantIdx) (g : Grant), named s s.slots[k] i g →
        (g.phase.isClosing = true ∨ g.lease = .untimed → ∃ t, exec .renew s = .next t ∧ endsWith s k rest .state t)
          ∧ ∀ (kind : TimedKind) (old p : BitVec 16) (u : Nat),
            g.phase.isClosing = false → g.lease = .timed kind old u →
            p = (if s.slots[k].args[8].extractLsb' 0 16 = 0#16 then old else s.slots[k].args[8].extractLsb' 0 16) →
              ∃ t, exec .renew s = .next t
                ∧ Settles s
                    { executed s k rest { endedSlot s.slots[k] .ok with
                        result := ((s.slots[k].result.set 0 (handleWord i s.grants[i].seq)).set 11 (kindWord kind)).set
                          12 (p.setWidth 32) } with
                      grants := s.grants.set i { s.grants[i] with grant := some { g with
                        lease := .timed kind p (p.toNat * 100) } } }
                    (1#15 <<< k.val) t

/-- QUERY changes no grant. It reports the index and the sequence of a FREE record in mode EXACT, bit 31 alone when mode NEXT
finds none, and ends BADARG for any other mode (R25, R180). -/
def Obligations.QueryOfFreeNoneAndBadMode : Prop :=
  ∀ (s : State) (k : SlotNo) (rest : List SlotNo) (i : GrantIdx),
    atFront s k rest 0x0005#16 → (s.slots[k].args[0].extractLsb' 8 6).toFin = i →
    (s.slots[k].args[1].extractLsb' 0 8 = 0#8 → s.grants[i].grant = none →
        ∃ t, exec .query s = .next t
          ∧ Settles s
              (executed s k rest { endedSlot s.slots[k] .ok with
                result := s.slots[k].result.set 0 (handleWord i s.grants[i].seq) })
              (1#15 <<< k.val) t)
      ∧ (s.slots[k].args[1].extractLsb' 0 8 = 1#8 → (∀ j : GrantIdx, i ≤ j → s.grants[j].grant = none) →
        ∃ t, exec .query s = .next t
          ∧ Settles s
              (executed s k rest { endedSlot s.slots[k] .ok with result := s.slots[k].result.set 0 0x80000000#32 })
              (1#15 <<< k.val) t)
      ∧ (2#8 ≤ s.slots[k].args[1].extractLsb' 0 8 → ∃ t, exec .query s = .next t ∧ endsWith s k rest .badarg t)

/-- QUERY of a grant writes its sixteen words and changes no grant (R25, R26, R180). Each word is given whole, as the sum of
its fields. That the remaining time of a stopped timer is rounded up too, and that a running timer at 0, whose expiry has not
been taken, is reported as 1 ms, is the model's reading (log entry 12). -/
def Obligations.QueryReportsGrant : Prop :=
  ∀ (s : State) (k : SlotNo) (rest : List SlotNo) (j : GrantIdx) (g : Grant),
    atFront s k rest 0x0005#16 → queried s s.slots[k] j → s.grants[j].grant = some g →
      ∃ t area, exec .query s = .next t
        ∧ Settles s (executed s k rest { endedSlot s.slots[k] .ok with result := area }) (1#15 <<< k.val) t
        ∧ ∀ n : Fin 32, (n.val < 16 → area[n].toNat = grantReported j s.grants[j].seq g n.val)
            ∧ (16 ≤ n.val → area[n] = s.slots[k].result[n])

/-- LOOKUP reports what checks 1, 3, 4 and 5 and the translation give, and changes no grant and no port; an access kind that is
neither READ nor WRITE is refused with BADARG (R27, R180). -/
def Obligations.LookupAnswersWithoutEffect : Prop :=
  ∀ (s : State) (k : SlotNo) (rest : List SlotNo), atFront s k rest 0x0006#16 →
    (2#8 ≤ s.slots[k].args[11].extractLsb' 0 8 → ∃ t, exec .lookup s = .next t ∧ endsWith s k rest .badarg t)
      ∧ ∀ (p : PortNo) (kind : AccessKind) (a : LocalAddr), requesterOf s.slots[k] = p →
        (s.slots[k].args[11].extractLsb' 0 8).toNat = kindBit kind → s.slots[k].args[2].extractLsb' 0 30 = a →
        (∀ (r : Result) (h : Option Handle),
            (s.ports[p].run = .halted ∧ r = .halted ∧ h = none) ∨ (s.ports[p].run = .run ∧ grantRefuses s p kind a r h) →
              ∃ t, exec .lookup s = .next t
                ∧ Settles s
                    (executed s k rest { endedSlot s.slots[k] .ok with
                      result := (s.slots[k].result.set 0 (handleWordOf h)).set 1
                        (BitVec.ofNat 32 (resultValue r + bit h.isSome * 2 ^ 8)) })
                    (1#15 <<< k.val) t)
          ∧ ∀ (i : GrantIdx) (g : Grant), s.ports[p].run = .run → foundAt s a i g → g.phase.isClosing = false →
            allowed g p kind = true →
              ∃ t, exec .lookup s = .next t
                ∧ Settles s
                    (executed s k rest { endedSlot s.slots[k] .ok with
                      result := ((((s.slots[k].result.set 0 (handleWord i s.grants[i].seq)).set 1 0x100#32).set 2
                        (g.cur.number.setWidth 32)).set 3 ((hostOf g a).extractLsb' 0 32)).set 4
                        ((hostOf g a).extractLsb' 32 32) })
                    (1#15 <<< k.val) t

/-! ## The other commands of the engine -/

/-- FENCE takes its snapshot: it ends OK when that has no members and waits with it otherwise, reporting the set and the two
counts; an empty set is refused with BADARG (R124, R125). How the state holds a snapshot is log entry 18. -/
def Obligations.FenceWaitsForSnapshot : Prop :=
  ∀ (s : State) (k : SlotNo) (rest : List SlotNo) (set : Set8),
    atFront s k rest 0x0007#16 → s.slots[k].args[12].extractLsb' 0 8 = set →
    (set = 0#8 → ∃ t, exec .fence s = .next t ∧ endsWith s k rest .badarg t)
      ∧ (set ≠ 0#8 → tagsIn s set = 0 → entriesIn s set = 0 →
        ∃ t, exec .fence s = .next t
          ∧ Settles s
              (executed s k rest { endedSlot s.slots[k] .ok with
                result := ((s.slots[k].result.set 0 (set.setWidth 32)).set 1 0#32).set 2 0#32 })
              (1#15 <<< k.val) t)
      ∧ (set ≠ 0#8 → tagsIn s set ≠ 0 ∨ entriesIn s set ≠ 0 →
        ∃ sn, taken s set sn
          ∧ exec .fence s = .next
              (executed s k rest { s.slots[k] with
                state := .waiting
                snapshot := some sn
                result := ((s.slots[k].result.set 0 (set.setWidth 32)).set 1 (BitVec.ofNat 32 (tagsIn s set))).set 2
                  (BitVec.ofNat 32 (entriesIn s set)) }))

/-- SET-REQUESTER applies every supplied value together and reports those in force; it is refused with BADARG for a fault of
its arguments, and with LIMIT for a read limit below the outstanding count (R82). It cannot make an eligible port ineligible: a
head read that was eligible is so still, unless it has had its grant or no tag is FREE any more (R95). That the grant of an
eligible read comes before a limit equal to the count, within the same command, is the model's reading (log entry 21). -/
def Obligations.SetRequesterAppliesOrRefuses : Prop :=
  ∀ (s : State) (k : SlotNo) (rest : List SlotNo) (p : PortNo) (policy : FaultPolicy) (limit : Nat),
    atFront s k rest 0x0008#16 → requesterOf s.slots[k] = p →
    policy = (if present s.slots[k] 0 then
        (if s.slots[k].args[13].extractLsb' 0 8 = 0#8 then .carryOn else .halt) else s.ports[p].policy) →
    limit = (if present s.slots[k] 1 then (s.slots[k].args[14].extractLsb' 0 8).toNat else s.ports[p].readLimit) →
    (¬ requesterGood s.slots[k] → ∃ t, exec .setRequester s = .next t ∧ endsWith s k rest .badarg t)
      ∧ (requesterGood s.slots[k] → present s.slots[k] 1 = true → limit < s.ports[p].outstanding →
        ∃ t, exec .setRequester s = .next t ∧ endsWith s k rest .limit t)
      ∧ (limitMeetsEligible s s.slots[k] p →
          ∃ u t, exec .tagGrant s = .next u ∧ exec .setRequester u = .next t ∧ exec .setRequester s = .next t)
      ∧ (requesterGood s.slots[k] → (present s.slots[k] 1 = true → s.ports[p].outstanding ≤ limit) →
          ¬ limitMeetsEligible s s.slots[k] p →
        ∃ t, exec .setRequester s = .next t
          ∧ Settles s
              { executed s k rest { endedSlot s.slots[k] .ok with
                  result := s.slots[k].result.set 0 (BitVec.ofNat 32 (bit (policy == .halt) + limit % 16 * 2 ^ 8)) } with
                ports := s.ports.set p { s.ports[p] with policy := policy, readLimit := limit } }
              (1#15 <<< k.val) t)
      ∧ ∀ (q : PortNo) (t : State), exec .setRequester s = .next t → mayRead s q = true → t.ports[q].head.isSome = true →
          (∃ n : TagNo, t.tags[n] = .free) → mayRead t q = true

/-- QUERY-REQUESTER reports the port it names and changes nothing in it (R83, R180). -/
def Obligations.QueryRequesterReportsPort : Prop :=
  ∀ (s : State) (k : SlotNo) (rest : List SlotNo) (q : Port),
    atFront s k rest 0x0009#16 → s.ports[requesterOf s.slots[k]] = q →
      ∃ t, exec .queryRequester s = .next t
        ∧ Settles s
            (executed s k rest { endedSlot s.slots[k] .ok with
              result := faultReported q (headReported q (s.slots[k].result.set 0 (portWord q))) })
            (1#15 <<< k.val) t

/-- R84, whole: RESUME empties the fault slot, sets the overflow count to 0 and the run state to RUN, whatever the port's
state, and reports what stood before. -/
def Obligations.ResumeEmptiesFaultSlot : Prop :=
  ∀ (s : State) (k : SlotNo) (rest : List SlotNo) (p : PortNo),
    atFront s k rest 0x000A#16 → requesterOf s.slots[k] = p →
      ∃ t, exec .resume s = .next t
        ∧ Settles s
            { executed s k rest { endedSlot s.slots[k] .ok with
                result := faultReported s.ports[p] s.slots[k].result } with
              ports := s.ports.set p { s.ports[p] with run := .run, fault := none, overflow := 0 } }
            (1#15 <<< k.val) t

/-- RESET-REQUESTER detaches the requester's reads and gives its port a clean start; it reports how many tags it detached and
whether it discarded a head access (R85). -/
def Obligations.ResetRequesterDetaches : Prop :=
  ∀ (s : State) (k : SlotNo) (rest : List SlotNo) (p : PortNo),
    atFront s k rest 0x000B#16 → requesterOf s.slots[k] = p →
      ∃ t, exec .resetRequester s = .next t
        ∧ Settles s
            { executed s k rest { endedSlot s.slots[k] .ok with
                result := s.slots[k].result.set 0
                  (BitVec.ofNat 32 (s.liveTags p % 16 + bit s.ports[p].head.isSome * 2 ^ 8)) } with
              ports := s.ports.set p (cleanPort s.ports[p])
              tags := Vector.ofFn fun n : TagNo => letGo (fun q => q == p) s.tags[n] }
            (1#15 <<< k.val) t

/-- SET-TIMING applies every supplied value together, keeps the others and reports all three; a faulty one is refused with
BADARG and changes nothing (R147). A changed threshold at or below the count makes the send attempt of R148, as `Settles`
says; that it is one test with the command's own SLOT_DONE, and that a raised threshold is tested too, is the model's reading
(log entries 7 and 8). -/
def Obligations.SetTimingAppliesOrRefuses : Prop :=
  ∀ (s : State) (k : SlotNo) (rest : List SlotNo) (tm : Timing),
    atFront s k rest 0x000C#16 → timingAfter s.slots[k] s.timing = tm →
    (¬ timingGood s.slots[k] → ∃ t, exec .setTiming s = .next t ∧ endsWith s k rest .badarg t)
      ∧ (timingGood s.slots[k] →
        ∃ t, exec .setTiming s = .next t
          ∧ Settles s
              { executed s k rest { endedSlot s.slots[k] .ok with
                  result := s.slots[k].result.set 0
                    (BitVec.ofNat 32 (tm.timeout % 256 + tm.threshold % 256 * 2 ^ 8 + tm.holdoff % 256 * 2 ^ 16)) } with
                timing := tm }
              (1#15 <<< k.val) t)

/-- A slot whose opcode names none of the twelve commands ends BADOP at its execution, and nothing else changes (R143). -/
def Obligations.UnknownOpcodeEndsBadop : Prop :=
  ∀ (s : State) (k : SlotNo) (rest : List SlotNo) (op : BitVec 16),
    atFront s k rest op → (op = 0#16 ∨ 0x000C#16 < op) → op ≠ 0x00FF#16 →
      ∃ t, exec .badop s = .next t ∧ endsWith s k rest .badop t

/-- An event changes nothing where it cannot be taken. A port takes no access while its head access is present or LRST is
asserted (R65, R72, R88); the arbiters make no grant without an eligible head access (R94, R96, R115, R116); a timer that does
not run, or has time left, does not expire (R54, R92, R105, R107, R159); the engine executes the command of the slot at the
front of the submission order and no other (R141, R143); no write leaves an empty queue (R118), and a request that is not at
the front of the outbound list is not sent (R169). That the command which names such an event leaves the state as it is, is
the model's choice (log entries 2 and 13). -/
def Obligations.EventsOutOfPlaceChangeNothing : Prop :=
  ∀ s : State,
    (∀ (p : PortNo) (w : Presented), s.lrst = true ∨ s.ports[p].head ≠ none → exec (.presentAccess p w) s = .next s)
      ∧ ((∀ p : PortNo, mayRead s p = false) → exec .tagGrant s = .next s)
      ∧ ((∀ p : PortNo, mayWrite s p = false) → exec .writeGrant s = .next s)
      ∧ (∀ i : GrantIdx, (∀ g, s.grants[i].grant = some g → g.phase.isClosing = true ∨ g.lease = .untimed
            ∨ ∃ k p u, g.lease = .timed k p (u + 1)) →
          exec (.leaseExpiry i) s = .next s)
      ∧ (∀ n : TagNo, (∀ r i, s.tags[n] ≠ .waiting r i 0) → exec (.deadlineExpiry n) s = .next s)
      ∧ (∀ n : TagNo, (∀ i, s.tags[n] ≠ .parked i 0) → exec (.parkPeriodEnd n) s = .next s)
      ∧ (s.notice.holdoffTimer ≠ some 0 → exec .holdoffExpiry s = .next s)
      ∧ (s.queue = [] → exec .writeLeaving s = .next s)
      ∧ ((∀ n a len rest, s.link.outbound ≠ .memRead n a len :: rest) → exec .memoryReadSend s = .next s)
      ∧ ((∀ rest, s.link.outbound ≠ .message :: rest) → ∀ m, exec (.messageSend m) s = .next s)
      ∧ ((∀ k rest, s.order = k :: rest → 0x0001#16 ≤ s.slots[k].opcode ∧ s.slots[k].opcode ≤ 0x000C#16) →
          exec .badop s = .next s)
      ∧ ∀ (c : Instr) (op : BitVec 16),
          (c, op) ∈ [(Instr.openGrant, 0x0001#16), (.modify, 0x0002#16), (.close, 0x0003#16), (.renew, 0x0004#16),
            (.query, 0x0005#16), (.lookup, 0x0006#16), (.fence, 0x0007#16), (.setRequester, 0x0008#16),
            (.queryRequester, 0x0009#16), (.resume, 0x000A#16), (.resetRequester, 0x000B#16),
            (.setTiming, 0x000C#16)] →
          (∀ k rest, s.order = k :: rest → s.slots[k].opcode ≠ op) → exec c s = .next s

/-! ## The host window -/

/-- A free slot takes a submission (R138) and a write of an argument word (R135): only that slot and the submission order
change. -/
def Obligations.FreeSlotTakesWrites : Prop :=
  ∀ (s : State) (k : SlotNo) (v : Word), s.link.up = true → ¬ busy s.slots[k] →
    (v.extractLsb' 0 16 ≠ 0x00FF#16 →
        exec (.submission k v) s = .next { s with
          slots := s.slots.set k { s.slots[k] with
            state := .pending, opcode := v.extractLsb' 0 16, result := Vector.replicate 32 0#32, status := .none,
            collided := false }
          order := s.order ++ [k] })
      ∧ ∀ (n : Fin 28) (o : BitVec 14), o.toNat = 0x1000 + 0x100 * k.val + 0x10 + 4 * n.val →
        exec (.hostWindowWrite o 4 0xF#4 v) s
          = .next { s with slots := s.slots.set k { s.slots[k] with args := s.slots[k].args.set n v } }

/-- A CANCEL ends the FENCE that its slot waits with, whatever the upper bits written: the snapshot is discarded and nothing
else changes (R130, R140, R177). -/
def Obligations.CancelEndsWaitingFence : Prop :=
  ∀ (s : State) (k : SlotNo) (upper : BitVec 16), s.link.up = true → waitsWithFence s.slots[k] →
    ∃ t, exec (.cancel k upper) s = .next t
      ∧ Settles s { s with slots := s.slots.set k (endedSlot s.slots[k] .cancelled) } (1#15 <<< k.val) t

/-- A write of an argument word or of an opcode to a busy slot, and a CANCEL to any slot that does not wait with a
FENCE, set the slot's collided indicator and the COLLISION cause and change nothing else (R139). Writes of a read-only word
(the identity words, status, pending, the moderation state word, a slot's status word and result area), writes at an undefined
offset and writes that the window does not take are no collisions: they change nothing (R139, R154, R156, R161, R167, R176,
R177). -/
def Obligations.CollisionsAreRecorded : Prop :=
  ∀ (s : State) (k : SlotNo) (c : Instr) (v : Word), s.link.up = true →
    ((busy s.slots[k] ∧ v.extractLsb' 0 16 ≠ 0x00FF#16 ∧ c = .submission k v)
        ∨ (busy s.slots[k] ∧ ∃ (n : Fin 28) (o : BitVec 14),
            o.toNat = 0x1000 + 0x100 * k.val + 0x10 + 4 * n.val ∧ c = .hostWindowWrite o 4 0xF#4 v)
        ∨ (¬ waitsWithFence s.slots[k] ∧ ∃ upper, c = .cancel k upper) →
      ∃ t, exec c s = .next t
        ∧ Settles s { s with slots := s.slots.set k { s.slots[k] with collided := true } } 0x2000#15 t)
      ∧ ((∃ (o : BitVec 14) (w : Nat) (e : BitVec 4), readOnlyOffset o ∧ c = .hostWindowWrite o w e v)
          ∨ (∃ (o : BitVec 14) (w : Nat) (e : BitVec 4), undefinedOffset o ∧ c = .hostWindowWrite o w e v)
          ∨ (∃ (o : BitVec 14) (w : Nat) (e : BitVec 4), (o.toNat % 4 ≠ 0 ∨ w ≠ 4 ∨ e ≠ 0xF#4)
              ∧ c = .hostWindowWrite o w e v) →
        exec c s = .next s)

/-- R154, whole: the acknowledge word removes the causes written and changes nothing else, the status word returns status and
a write to it has no effect, the acknowledge word reads 0. -/
def Obligations.AcknowledgeRemovesCauses : Prop :=
  ∀ (s : State) (v : Word), s.link.up = true →
    exec (.acknowledge v) s
        = .next { s with notice := { s.notice with status := s.notice.status &&& ~~~ (v.extractLsb' 0 15) } }
      ∧ exec (.hostWindowWrite 0x0100#14 4 0xF#4 v) s = .next s
      ∧ s.hostRead 0x0100#14 4 0xF#4 = some (s.notice.status.setWidth 32)
      ∧ s.hostRead 0x010C#14 4 0xF#4 = some 0#32

/-- R155, whole: the three words that change enable, and what each reads. A set cause that joins enable is an event, counted
and moderated as `Moderated` says; one that leaves enable changes neither status nor the count nor the timer. -/
def Obligations.EnableWords : Prop :=
  ∀ (s : State) (v : Word) (c : Instr) (e : CauseSet), s.link.up = true →
    (c = .enable v ∧ e = v.extractLsb' 0 15)
        ∨ (c = .setEnable v ∧ e = s.notice.enable ||| v.extractLsb' 0 15)
        ∨ (c = .clearEnable v ∧ e = s.notice.enable &&& ~~~ (v.extractLsb' 0 15)) →
    (∃ t, exec c s = .next t
        ∧ t = { s with notice := t.notice, link := { s.link with outbound := t.link.outbound } }
        ∧ t.notice.enable = e ∧ t.notice.status = s.notice.status ∧ t.notice.masterEnable = s.notice.masterEnable
        ∧ Moderated s t (members ((s.notice.status &&& e) &&& ~~~ (s.notice.status &&& s.notice.enable))) false
            s.link.outbound
        ∧ (c = .clearEnable v → t.notice.eventCount = s.notice.eventCount
            ∧ t.notice.holdoffTimer = s.notice.holdoffTimer ∧ t.link = s.link))
      ∧ ∀ o : BitVec 14, o = 0x0104#14 ∨ o = 0x0110#14 ∨ o = 0x0114#14 →
          s.hostRead o 4 0xF#4 = some (s.notice.enable.setWidth 32)

/-- Bit 0 sets master enable, and reads as it stands; turning it on with pending not empty and a count of 1 or more sends at
once, and any other write changes nothing else (R160, R176). -/
def Obligations.MasterEnableWord : Prop :=
  ∀ (s : State) (v : Word), s.link.up = true →
    s.hostRead 0x0118#14 4 0xF#4 = some (if s.notice.masterEnable then 1#32 else 0#32)
      ∧ (v.getLsbD 0 = true → s.notice.masterEnable = false → s.notice.status &&& s.notice.enable ≠ 0#15 →
          1 ≤ s.notice.eventCount →
        exec (.masterEnable v) s = .next { s with
          notice := { s.notice with masterEnable := true, eventCount := 0, holdoffTimer := none }
          link := { s.link with outbound :=
            if Request.message ∈ s.link.outbound then s.link.outbound else s.link.outbound ++ [.message] } })
      ∧ (v.getLsbD 0 = false ∨ s.notice.masterEnable = true ∨ s.notice.status &&& s.notice.enable = 0#15
            ∨ s.notice.eventCount = 0 →
        exec (.masterEnable v) s = .next { s with notice := { s.notice with masterEnable := v.getLsbD 0 } })

/-- An index joins the expired set exactly when a grant there expires (R58), and leaves it only by a host write, which removes
the members whose bits are ones and changes nothing else (R59), or by a teardown (R62). The set is empty at power-on, and each
word reads as its members. That the expiry is a command of its own, taken when the remaining time has reached 0, and that a
read is a function beside the commands, is the model's form (log entries 4 and 14). -/
def Obligations.ExpiredSetMembership : Prop :=
  State.reset.expired = 0#64
    ∧ (∀ s : State, s.hostRead 0x0200#14 4 0xF#4 = (if s.link.up then some (s.expired.extractLsb' 0 32) else none)
        ∧ s.hostRead 0x0204#14 4 0xF#4 = (if s.link.up then some (s.expired.extractLsb' 32 32) else none))
    ∧ (∀ (s : State) (i : GrantIdx) (g : Grant), s.grants[i].grant = some g → g.phase.isClosing = false →
        (∃ k p, g.lease = .timed k p 0) →
          ∃ t, exec (.leaseExpiry i) s = .next t ∧ t.expired = s.expired ||| 1#64 <<< i.val)
    ∧ (∀ (s : State) (v : Word), s.link.up = true →
        exec (.expiredSetClear 0 v) s = .next { s with expired := s.expired &&& ~~~ (0#32 ++ v) }
          ∧ exec (.expiredSetClear 1 v) s = .next { s with expired := s.expired &&& ~~~ (v ++ 0#32) })
    ∧ ∀ (c : Instr) (s t : State), exec c s = .next t → c.wellFormed = true → t.expired ≠ s.expired →
        (∃ i, c = .leaseExpiry i ∧ ∃ g, s.grants[i].grant = some g ∧ g.phase.isClosing = false
              ∧ ∃ k p, g.lease = .timed k p 0)
          ∨ (s.link.up = true ∧ ∃ w v, c = .expiredSetClear w v)
          ∨ (t.expired = 0#64 ∧ (c = .powerOn ∨ (s.link.up = true
              ∧ (c = .linkLost ∨ c = .hotReset ∨ c = .functionReset))))

/-- What the host reads in UP (R156, R161, R167, R176, R177): the identity words, the pending word, the moderation state word,
and the words of a slot, with the numbers of R177 for its state and its status. A read that is not of one whole word, and one at
an undefined offset, returns 0. That a read is a function beside the commands, and that a read with a byte not enabled is not
one of a whole word, is the model's reading (log entry 14). -/
def Obligations.HostReads : Prop :=
  ∀ s : State, s.link.up = true →
    s.hostRead 0x0000#14 4 0xF#4 = some 0x00007064#32 ∧ s.hostRead 0x0004#14 4 0xF#4 = some 1#32
      ∧ s.hostRead 0x0008#14 4 0xF#4 = some 64#32 ∧ s.hostRead 0x000C#14 4 0xF#4 = some 32#32
      ∧ s.hostRead 0x0010#14 4 0xF#4 = some 16#32 ∧ s.hostRead 0x0014#14 4 0xF#4 = some 8#32
      ∧ s.hostRead 0x0018#14 4 0xF#4 = some 4#32
      ∧ s.hostRead 0x0108#14 4 0xF#4 = some ((s.notice.status &&& s.notice.enable).setWidth 32)
      ∧ s.hostRead 0x011C#14 4 0xF#4
          = some (BitVec.ofNat 32 (s.notice.eventCount % 256 + bit s.notice.holdoffTimer.isSome * 256))
      ∧ (∀ (o : BitVec 14) (w : Nat) (e : BitVec 4), o.toNat % 4 ≠ 0 ∨ w ≠ 4 ∨ e ≠ 0xF#4 ∨ undefinedOffset o →
          s.hostRead o w e = some 0#32)
      ∧ ∀ (k : SlotNo) (o : BitVec 14),
          (o.toNat = 0x1000 + 0x100 * k.val →
              s.hostRead o 4 0xF#4
                = some (BitVec.ofNat 32 (s.slots[k].opcode.toNat + slotStateNumber s.slots[k].state * 2 ^ 16)))
            ∧ (o.toNat = 0x1004 + 0x100 * k.val →
              s.hostRead o 4 0xF#4
                = some (BitVec.ofNat 32 (statusNumber s.slots[k].status + bit s.slots[k].collided * 2 ^ 8)))
            ∧ (∀ n : Fin 28, o.toNat = 0x1010 + 0x100 * k.val + 4 * n.val →
              s.hostRead o 4 0xF#4 = some s.slots[k].args[n])
            ∧ ∀ n : Fin 32, o.toNat = 0x1080 + 0x100 * k.val + 4 * n.val →
              s.hostRead o 4 0xF#4 = some s.slots[k].result[n]

/-! ## What every step keeps -/

/-- R28, whole: every step keeps the in-flight accounting, under which the counts of one grant's two generations together
never exceed 48 and a previous generation counts 1 or more. -/
def Obligations.StepKeepsTrafficAccounted : Prop :=
  ∀ s : State, TrafficAccounted s →
    (∀ t, step s = .next t → TrafficAccounted t)
      ∧ ∀ (i : GrantIdx) (g : Grant), s.grants[i].grant = some g →
        inFlight g ≤ 48 ∧ ∀ p, previous g = some p → 1 ≤ p.count ∧ p.number ≠ g.cur.number

/-- R9: every step keeps every grant's mapping legal and the local ranges of the grants not in FREE disjoint, so that at most
one grant's range contains a local address. -/
def Obligations.StepKeepsRangesDisjoint : Prop :=
  ∀ s : State, RangesDisjoint s →
    (∀ t, step s = .next t → RangesDisjoint t)
      ∧ ∀ (a : LocalAddr) (i j : GrantIdx) (g h : Grant), s.grants[i].grant = some g → s.grants[j].grant = some h →
        inRange g a = true → inRange h a = true → i = j

/-- Every step keeps the sequences in 1 to 255 (R7) and every lease sound (R53, R54). -/
def Obligations.StepKeepsSequencesAndLeases : Prop :=
  ∀ s t : State, step s = .next t →
    (SequencesNonzero s → SequencesNonzero t) ∧ (LeasesSound s → LeasesSound t)
      ∧ (CountersBounded s → CountersBounded t)

/-- Every step keeps what each port holds in agreement with the outstanding read table: the outstanding count is the number of
the requester's WAITING, not detached tags and never above its read limit, and its labels in use are theirs, each once (R64,
R69, R73). -/
def Obligations.StepKeepsPortsAccounted : Prop :=
  ∀ s t : State, step s = .next t → PortsAccounted s → PortsAccounted t

/-- Every step keeps a HALTED requester's fault slot filled (R80), faults counted only against a filled slot and up to 255
(R78); while LRST is asserted, every head absent and every read detached (R88); the tags and the timing parameters in their
ranges (R91, R147); and the notice unit's count and timer in theirs (R151, R159). -/
def Obligations.StepKeepsUnitsInRange : Prop :=
  ∀ s t : State, step s = .next t →
    (FaultSlotsSound s → FaultSlotsSound t) ∧ (LrstQuiet s → LrstQuiet t) ∧ (TagsSound s → TagsSound t)
      ∧ (NoticesSound s → NoticesSound t)

/-- Every step keeps the slots, the submission order, the snapshots and the waiting slots of the grants consistent: a slot that
waits has a wait outstanding, a snapshot holds only traffic still in flight, no grant names a slot that does not wait for it
(R6, R125, R126, R134, R137, R141). -/
def Obligations.StepKeepsSlotsSound : Prop :=
  ∀ s t : State, step s = .next t → SlotsSound s → SlotsSound t

/-- Every step keeps the outbound list sound: no memory write, one interrupt message at most, and one memory read at most for
each tag, which is WAITING with it (R169, R170, R172). That an enable of messaging is held only for a message at the front is
of the model's own making (log entry 9). -/
def Obligations.StepKeepsOutboundSound : Prop :=
  ∀ s t : State, step s = .next t → OutboundSound s → OutboundSound t

/-- While the link is DOWN, every step keeps the host side of the part at its defaults: no traffic under a grant can reach the
link (R99, R123, R149, R163, R165, R168). -/
def Obligations.StepKeepsDownQuiet : Prop :=
  ∀ s t : State, step s = .next t → DownIsQuiet s → DownIsQuiet t

/-- The state right after power-on meets every invariant. -/
def Obligations.ResetMeetsInvariants : Prop :=
  TrafficAccounted State.reset ∧ RangesDisjoint State.reset ∧ SequencesNonzero State.reset ∧ LeasesSound State.reset
    ∧ CountersBounded State.reset ∧ PortsAccounted State.reset ∧ FaultSlotsSound State.reset ∧ LrstQuiet State.reset
    ∧ TagsSound State.reset ∧ NoticesSound State.reset ∧ SlotsSound State.reset ∧ OutboundSound State.reset
    ∧ DownIsQuiet State.reset

/-- Each entry of a slot into DONE sets the slot's notice cause in the same change and clears none; a return to IDLE sets
nothing (R145). -/
def Obligations.EntryIntoDoneSetsCause : Prop :=
  ∀ (c : Instr) (s t : State) (k : SlotNo), exec c s = .next t →
    (s.slots[k].state ≠ .done → t.slots[k].state = .done →
        t.notice.status.getLsbD k.val = true ∧ s.notice.status &&& t.notice.status = s.notice.status)
      ∧ (s.slots[k].state ≠ .idle → t.slots[k].state = .idle → t.notice.status.getLsbD k.val = false)
end

