-- ==== Sys2Proof/Laws/State.lean ====
section
/-! SUPPORT. Every field of State after every update of one part of it, and what reading an element back gives. The
lemmas about untouched fields are simp lemmas, so that no proof unfolds a record update. -/

namespace Sys2Proof.Machine

/-! ### Untouched fields -/

@[simp] theorem State.setRecord_expired (i : GrantIdx) (r : Record) (s : State) : (s.setRecord i r).expired = s.expired := rfl
@[simp] theorem State.setRecord_ports (i : GrantIdx) (r : Record) (s : State) : (s.setRecord i r).ports = s.ports := rfl
@[simp] theorem State.setRecord_lrst (i : GrantIdx) (r : Record) (s : State) : (s.setRecord i r).lrst = s.lrst := rfl
@[simp] theorem State.setRecord_tags (i : GrantIdx) (r : Record) (s : State) : (s.setRecord i r).tags = s.tags := rfl
@[simp] theorem State.setRecord_tagLast (i : GrantIdx) (r : Record) (s : State) : (s.setRecord i r).tagLast = s.tagLast := rfl
@[simp] theorem State.setRecord_queue (i : GrantIdx) (r : Record) (s : State) : (s.setRecord i r).queue = s.queue := rfl
@[simp] theorem State.setRecord_writeLast (i : GrantIdx) (r : Record) (s : State) : (s.setRecord i r).writeLast = s.writeLast := rfl
@[simp] theorem State.setRecord_slots (i : GrantIdx) (r : Record) (s : State) : (s.setRecord i r).slots = s.slots := rfl
@[simp] theorem State.setRecord_order (i : GrantIdx) (r : Record) (s : State) : (s.setRecord i r).order = s.order := rfl
@[simp] theorem State.setRecord_timing (i : GrantIdx) (r : Record) (s : State) : (s.setRecord i r).timing = s.timing := rfl
@[simp] theorem State.setRecord_notice (i : GrantIdx) (r : Record) (s : State) : (s.setRecord i r).notice = s.notice := rfl
@[simp] theorem State.setRecord_link (i : GrantIdx) (r : Record) (s : State) : (s.setRecord i r).link = s.link := rfl
@[simp] theorem State.setRecord_answers (i : GrantIdx) (r : Record) (s : State) : (s.setRecord i r).answers = s.answers := rfl
@[simp] theorem State.setRecord_sent (i : GrantIdx) (r : Record) (s : State) : (s.setRecord i r).sent = s.sent := rfl
@[simp] theorem State.setRecord_pending (i : GrantIdx) (r : Record) (s : State) : (s.setRecord i r).pending = s.pending := rfl

@[simp] theorem State.setGrant_expired (i : GrantIdx) (g : Grant) (s : State) : (s.setGrant i g).expired = s.expired := rfl
@[simp] theorem State.setGrant_ports (i : GrantIdx) (g : Grant) (s : State) : (s.setGrant i g).ports = s.ports := rfl
@[simp] theorem State.setGrant_lrst (i : GrantIdx) (g : Grant) (s : State) : (s.setGrant i g).lrst = s.lrst := rfl
@[simp] theorem State.setGrant_tags (i : GrantIdx) (g : Grant) (s : State) : (s.setGrant i g).tags = s.tags := rfl
@[simp] theorem State.setGrant_tagLast (i : GrantIdx) (g : Grant) (s : State) : (s.setGrant i g).tagLast = s.tagLast := rfl
@[simp] theorem State.setGrant_queue (i : GrantIdx) (g : Grant) (s : State) : (s.setGrant i g).queue = s.queue := rfl
@[simp] theorem State.setGrant_writeLast (i : GrantIdx) (g : Grant) (s : State) : (s.setGrant i g).writeLast = s.writeLast := rfl
@[simp] theorem State.setGrant_slots (i : GrantIdx) (g : Grant) (s : State) : (s.setGrant i g).slots = s.slots := rfl
@[simp] theorem State.setGrant_order (i : GrantIdx) (g : Grant) (s : State) : (s.setGrant i g).order = s.order := rfl
@[simp] theorem State.setGrant_timing (i : GrantIdx) (g : Grant) (s : State) : (s.setGrant i g).timing = s.timing := rfl
@[simp] theorem State.setGrant_notice (i : GrantIdx) (g : Grant) (s : State) : (s.setGrant i g).notice = s.notice := rfl
@[simp] theorem State.setGrant_link (i : GrantIdx) (g : Grant) (s : State) : (s.setGrant i g).link = s.link := rfl
@[simp] theorem State.setGrant_answers (i : GrantIdx) (g : Grant) (s : State) : (s.setGrant i g).answers = s.answers := rfl
@[simp] theorem State.setGrant_sent (i : GrantIdx) (g : Grant) (s : State) : (s.setGrant i g).sent = s.sent := rfl
@[simp] theorem State.setGrant_pending (i : GrantIdx) (g : Grant) (s : State) : (s.setGrant i g).pending = s.pending := rfl

@[simp] theorem State.setPort_grants (p : PortNo) (q : Port) (s : State) : (s.setPort p q).grants = s.grants := rfl
@[simp] theorem State.setPort_expired (p : PortNo) (q : Port) (s : State) : (s.setPort p q).expired = s.expired := rfl
@[simp] theorem State.setPort_lrst (p : PortNo) (q : Port) (s : State) : (s.setPort p q).lrst = s.lrst := rfl
@[simp] theorem State.setPort_tags (p : PortNo) (q : Port) (s : State) : (s.setPort p q).tags = s.tags := rfl
@[simp] theorem State.setPort_tagLast (p : PortNo) (q : Port) (s : State) : (s.setPort p q).tagLast = s.tagLast := rfl
@[simp] theorem State.setPort_queue (p : PortNo) (q : Port) (s : State) : (s.setPort p q).queue = s.queue := rfl
@[simp] theorem State.setPort_writeLast (p : PortNo) (q : Port) (s : State) : (s.setPort p q).writeLast = s.writeLast := rfl
@[simp] theorem State.setPort_slots (p : PortNo) (q : Port) (s : State) : (s.setPort p q).slots = s.slots := rfl
@[simp] theorem State.setPort_order (p : PortNo) (q : Port) (s : State) : (s.setPort p q).order = s.order := rfl
@[simp] theorem State.setPort_timing (p : PortNo) (q : Port) (s : State) : (s.setPort p q).timing = s.timing := rfl
@[simp] theorem State.setPort_notice (p : PortNo) (q : Port) (s : State) : (s.setPort p q).notice = s.notice := rfl
@[simp] theorem State.setPort_link (p : PortNo) (q : Port) (s : State) : (s.setPort p q).link = s.link := rfl
@[simp] theorem State.setPort_answers (p : PortNo) (q : Port) (s : State) : (s.setPort p q).answers = s.answers := rfl
@[simp] theorem State.setPort_sent (p : PortNo) (q : Port) (s : State) : (s.setPort p q).sent = s.sent := rfl
@[simp] theorem State.setPort_pending (p : PortNo) (q : Port) (s : State) : (s.setPort p q).pending = s.pending := rfl

@[simp] theorem State.setTag_grants (t : TagNo) (e : TagEntry) (s : State) : (s.setTag t e).grants = s.grants := rfl
@[simp] theorem State.setTag_expired (t : TagNo) (e : TagEntry) (s : State) : (s.setTag t e).expired = s.expired := rfl
@[simp] theorem State.setTag_ports (t : TagNo) (e : TagEntry) (s : State) : (s.setTag t e).ports = s.ports := rfl
@[simp] theorem State.setTag_lrst (t : TagNo) (e : TagEntry) (s : State) : (s.setTag t e).lrst = s.lrst := rfl
@[simp] theorem State.setTag_tagLast (t : TagNo) (e : TagEntry) (s : State) : (s.setTag t e).tagLast = s.tagLast := rfl
@[simp] theorem State.setTag_queue (t : TagNo) (e : TagEntry) (s : State) : (s.setTag t e).queue = s.queue := rfl
@[simp] theorem State.setTag_writeLast (t : TagNo) (e : TagEntry) (s : State) : (s.setTag t e).writeLast = s.writeLast := rfl
@[simp] theorem State.setTag_slots (t : TagNo) (e : TagEntry) (s : State) : (s.setTag t e).slots = s.slots := rfl
@[simp] theorem State.setTag_order (t : TagNo) (e : TagEntry) (s : State) : (s.setTag t e).order = s.order := rfl
@[simp] theorem State.setTag_timing (t : TagNo) (e : TagEntry) (s : State) : (s.setTag t e).timing = s.timing := rfl
@[simp] theorem State.setTag_notice (t : TagNo) (e : TagEntry) (s : State) : (s.setTag t e).notice = s.notice := rfl
@[simp] theorem State.setTag_link (t : TagNo) (e : TagEntry) (s : State) : (s.setTag t e).link = s.link := rfl
@[simp] theorem State.setTag_answers (t : TagNo) (e : TagEntry) (s : State) : (s.setTag t e).answers = s.answers := rfl
@[simp] theorem State.setTag_sent (t : TagNo) (e : TagEntry) (s : State) : (s.setTag t e).sent = s.sent := rfl
@[simp] theorem State.setTag_pending (t : TagNo) (e : TagEntry) (s : State) : (s.setTag t e).pending = s.pending := rfl

@[simp] theorem State.setSlot_grants (k : SlotNo) (sl : Slot) (s : State) : (s.setSlot k sl).grants = s.grants := rfl
@[simp] theorem State.setSlot_expired (k : SlotNo) (sl : Slot) (s : State) : (s.setSlot k sl).expired = s.expired := rfl
@[simp] theorem State.setSlot_ports (k : SlotNo) (sl : Slot) (s : State) : (s.setSlot k sl).ports = s.ports := rfl
@[simp] theorem State.setSlot_lrst (k : SlotNo) (sl : Slot) (s : State) : (s.setSlot k sl).lrst = s.lrst := rfl
@[simp] theorem State.setSlot_tags (k : SlotNo) (sl : Slot) (s : State) : (s.setSlot k sl).tags = s.tags := rfl
@[simp] theorem State.setSlot_tagLast (k : SlotNo) (sl : Slot) (s : State) : (s.setSlot k sl).tagLast = s.tagLast := rfl
@[simp] theorem State.setSlot_queue (k : SlotNo) (sl : Slot) (s : State) : (s.setSlot k sl).queue = s.queue := rfl
@[simp] theorem State.setSlot_writeLast (k : SlotNo) (sl : Slot) (s : State) : (s.setSlot k sl).writeLast = s.writeLast := rfl
@[simp] theorem State.setSlot_order (k : SlotNo) (sl : Slot) (s : State) : (s.setSlot k sl).order = s.order := rfl
@[simp] theorem State.setSlot_timing (k : SlotNo) (sl : Slot) (s : State) : (s.setSlot k sl).timing = s.timing := rfl
@[simp] theorem State.setSlot_notice (k : SlotNo) (sl : Slot) (s : State) : (s.setSlot k sl).notice = s.notice := rfl
@[simp] theorem State.setSlot_link (k : SlotNo) (sl : Slot) (s : State) : (s.setSlot k sl).link = s.link := rfl
@[simp] theorem State.setSlot_answers (k : SlotNo) (sl : Slot) (s : State) : (s.setSlot k sl).answers = s.answers := rfl
@[simp] theorem State.setSlot_sent (k : SlotNo) (sl : Slot) (s : State) : (s.setSlot k sl).sent = s.sent := rfl
@[simp] theorem State.setSlot_pending (k : SlotNo) (sl : Slot) (s : State) : (s.setSlot k sl).pending = s.pending := rfl

@[simp] theorem State.answer_grants (p : PortNo) (a : Answer) (s : State) : (s.answer p a).grants = s.grants := rfl
@[simp] theorem State.answer_expired (p : PortNo) (a : Answer) (s : State) : (s.answer p a).expired = s.expired := rfl
@[simp] theorem State.answer_ports (p : PortNo) (a : Answer) (s : State) : (s.answer p a).ports = s.ports := rfl
@[simp] theorem State.answer_lrst (p : PortNo) (a : Answer) (s : State) : (s.answer p a).lrst = s.lrst := rfl
@[simp] theorem State.answer_tags (p : PortNo) (a : Answer) (s : State) : (s.answer p a).tags = s.tags := rfl
@[simp] theorem State.answer_tagLast (p : PortNo) (a : Answer) (s : State) : (s.answer p a).tagLast = s.tagLast := rfl
@[simp] theorem State.answer_queue (p : PortNo) (a : Answer) (s : State) : (s.answer p a).queue = s.queue := rfl
@[simp] theorem State.answer_writeLast (p : PortNo) (a : Answer) (s : State) : (s.answer p a).writeLast = s.writeLast := rfl
@[simp] theorem State.answer_slots (p : PortNo) (a : Answer) (s : State) : (s.answer p a).slots = s.slots := rfl
@[simp] theorem State.answer_order (p : PortNo) (a : Answer) (s : State) : (s.answer p a).order = s.order := rfl
@[simp] theorem State.answer_timing (p : PortNo) (a : Answer) (s : State) : (s.answer p a).timing = s.timing := rfl
@[simp] theorem State.answer_notice (p : PortNo) (a : Answer) (s : State) : (s.answer p a).notice = s.notice := rfl
@[simp] theorem State.answer_link (p : PortNo) (a : Answer) (s : State) : (s.answer p a).link = s.link := rfl
@[simp] theorem State.answer_sent (p : PortNo) (a : Answer) (s : State) : (s.answer p a).sent = s.sent := rfl
@[simp] theorem State.answer_pending (p : PortNo) (a : Answer) (s : State) : (s.answer p a).pending = s.pending := rfl

@[simp] theorem State.joinOutbound_grants (r : Request) (s : State) : (s.joinOutbound r).grants = s.grants := rfl
@[simp] theorem State.joinOutbound_expired (r : Request) (s : State) : (s.joinOutbound r).expired = s.expired := rfl
@[simp] theorem State.joinOutbound_ports (r : Request) (s : State) : (s.joinOutbound r).ports = s.ports := rfl
@[simp] theorem State.joinOutbound_lrst (r : Request) (s : State) : (s.joinOutbound r).lrst = s.lrst := rfl
@[simp] theorem State.joinOutbound_tags (r : Request) (s : State) : (s.joinOutbound r).tags = s.tags := rfl
@[simp] theorem State.joinOutbound_tagLast (r : Request) (s : State) : (s.joinOutbound r).tagLast = s.tagLast := rfl
@[simp] theorem State.joinOutbound_queue (r : Request) (s : State) : (s.joinOutbound r).queue = s.queue := rfl
@[simp] theorem State.joinOutbound_writeLast (r : Request) (s : State) : (s.joinOutbound r).writeLast = s.writeLast := rfl
@[simp] theorem State.joinOutbound_slots (r : Request) (s : State) : (s.joinOutbound r).slots = s.slots := rfl
@[simp] theorem State.joinOutbound_order (r : Request) (s : State) : (s.joinOutbound r).order = s.order := rfl
@[simp] theorem State.joinOutbound_timing (r : Request) (s : State) : (s.joinOutbound r).timing = s.timing := rfl
@[simp] theorem State.joinOutbound_notice (r : Request) (s : State) : (s.joinOutbound r).notice = s.notice := rfl
@[simp] theorem State.joinOutbound_answers (r : Request) (s : State) : (s.joinOutbound r).answers = s.answers := rfl
@[simp] theorem State.joinOutbound_sent (r : Request) (s : State) : (s.joinOutbound r).sent = s.sent := rfl
@[simp] theorem State.joinOutbound_pending (r : Request) (s : State) : (s.joinOutbound r).pending = s.pending := rfl

@[simp] theorem State.setCauses_grants (c : CauseSet) (s : State) : (s.setCauses c).grants = s.grants := rfl
@[simp] theorem State.setCauses_expired (c : CauseSet) (s : State) : (s.setCauses c).expired = s.expired := rfl
@[simp] theorem State.setCauses_ports (c : CauseSet) (s : State) : (s.setCauses c).ports = s.ports := rfl
@[simp] theorem State.setCauses_lrst (c : CauseSet) (s : State) : (s.setCauses c).lrst = s.lrst := rfl
@[simp] theorem State.setCauses_tags (c : CauseSet) (s : State) : (s.setCauses c).tags = s.tags := rfl
@[simp] theorem State.setCauses_tagLast (c : CauseSet) (s : State) : (s.setCauses c).tagLast = s.tagLast := rfl
@[simp] theorem State.setCauses_queue (c : CauseSet) (s : State) : (s.setCauses c).queue = s.queue := rfl
@[simp] theorem State.setCauses_writeLast (c : CauseSet) (s : State) : (s.setCauses c).writeLast = s.writeLast := rfl
@[simp] theorem State.setCauses_slots (c : CauseSet) (s : State) : (s.setCauses c).slots = s.slots := rfl
@[simp] theorem State.setCauses_order (c : CauseSet) (s : State) : (s.setCauses c).order = s.order := rfl
@[simp] theorem State.setCauses_timing (c : CauseSet) (s : State) : (s.setCauses c).timing = s.timing := rfl
@[simp] theorem State.setCauses_link (c : CauseSet) (s : State) : (s.setCauses c).link = s.link := rfl
@[simp] theorem State.setCauses_answers (c : CauseSet) (s : State) : (s.setCauses c).answers = s.answers := rfl
@[simp] theorem State.setCauses_sent (c : CauseSet) (s : State) : (s.setCauses c).sent = s.sent := rfl
@[simp] theorem State.setCauses_pending (c : CauseSet) (s : State) : (s.setCauses c).pending = s.pending := rfl

@[simp] theorem State.restartCount_grants (s : State) : (s.restartCount).grants = s.grants := rfl
@[simp] theorem State.restartCount_expired (s : State) : (s.restartCount).expired = s.expired := rfl
@[simp] theorem State.restartCount_ports (s : State) : (s.restartCount).ports = s.ports := rfl
@[simp] theorem State.restartCount_lrst (s : State) : (s.restartCount).lrst = s.lrst := rfl
@[simp] theorem State.restartCount_tags (s : State) : (s.restartCount).tags = s.tags := rfl
@[simp] theorem State.restartCount_tagLast (s : State) : (s.restartCount).tagLast = s.tagLast := rfl
@[simp] theorem State.restartCount_queue (s : State) : (s.restartCount).queue = s.queue := rfl
@[simp] theorem State.restartCount_writeLast (s : State) : (s.restartCount).writeLast = s.writeLast := rfl
@[simp] theorem State.restartCount_slots (s : State) : (s.restartCount).slots = s.slots := rfl
@[simp] theorem State.restartCount_order (s : State) : (s.restartCount).order = s.order := rfl
@[simp] theorem State.restartCount_timing (s : State) : (s.restartCount).timing = s.timing := rfl
@[simp] theorem State.restartCount_link (s : State) : (s.restartCount).link = s.link := rfl
@[simp] theorem State.restartCount_answers (s : State) : (s.restartCount).answers = s.answers := rfl
@[simp] theorem State.restartCount_sent (s : State) : (s.restartCount).sent = s.sent := rfl
@[simp] theorem State.restartCount_pending (s : State) : (s.restartCount).pending = s.pending := rfl

@[simp] theorem State.startHoldoff_grants (s : State) : (s.startHoldoff).grants = s.grants := rfl
@[simp] theorem State.startHoldoff_expired (s : State) : (s.startHoldoff).expired = s.expired := rfl
@[simp] theorem State.startHoldoff_ports (s : State) : (s.startHoldoff).ports = s.ports := rfl
@[simp] theorem State.startHoldoff_lrst (s : State) : (s.startHoldoff).lrst = s.lrst := rfl
@[simp] theorem State.startHoldoff_tags (s : State) : (s.startHoldoff).tags = s.tags := rfl
@[simp] theorem State.startHoldoff_tagLast (s : State) : (s.startHoldoff).tagLast = s.tagLast := rfl
@[simp] theorem State.startHoldoff_queue (s : State) : (s.startHoldoff).queue = s.queue := rfl
@[simp] theorem State.startHoldoff_writeLast (s : State) : (s.startHoldoff).writeLast = s.writeLast := rfl
@[simp] theorem State.startHoldoff_slots (s : State) : (s.startHoldoff).slots = s.slots := rfl
@[simp] theorem State.startHoldoff_order (s : State) : (s.startHoldoff).order = s.order := rfl
@[simp] theorem State.startHoldoff_timing (s : State) : (s.startHoldoff).timing = s.timing := rfl
@[simp] theorem State.startHoldoff_link (s : State) : (s.startHoldoff).link = s.link := rfl
@[simp] theorem State.startHoldoff_answers (s : State) : (s.startHoldoff).answers = s.answers := rfl
@[simp] theorem State.startHoldoff_sent (s : State) : (s.startHoldoff).sent = s.sent := rfl
@[simp] theorem State.startHoldoff_pending (s : State) : (s.startHoldoff).pending = s.pending := rfl

@[simp] theorem State.withdraw_grants (t : TagNo) (s : State) : (s.withdraw t).grants = s.grants := rfl
@[simp] theorem State.withdraw_expired (t : TagNo) (s : State) : (s.withdraw t).expired = s.expired := rfl
@[simp] theorem State.withdraw_ports (t : TagNo) (s : State) : (s.withdraw t).ports = s.ports := rfl
@[simp] theorem State.withdraw_lrst (t : TagNo) (s : State) : (s.withdraw t).lrst = s.lrst := rfl
@[simp] theorem State.withdraw_tags (t : TagNo) (s : State) : (s.withdraw t).tags = s.tags := rfl
@[simp] theorem State.withdraw_tagLast (t : TagNo) (s : State) : (s.withdraw t).tagLast = s.tagLast := rfl
@[simp] theorem State.withdraw_queue (t : TagNo) (s : State) : (s.withdraw t).queue = s.queue := rfl
@[simp] theorem State.withdraw_writeLast (t : TagNo) (s : State) : (s.withdraw t).writeLast = s.writeLast := rfl
@[simp] theorem State.withdraw_slots (t : TagNo) (s : State) : (s.withdraw t).slots = s.slots := rfl
@[simp] theorem State.withdraw_order (t : TagNo) (s : State) : (s.withdraw t).order = s.order := rfl
@[simp] theorem State.withdraw_timing (t : TagNo) (s : State) : (s.withdraw t).timing = s.timing := rfl
@[simp] theorem State.withdraw_notice (t : TagNo) (s : State) : (s.withdraw t).notice = s.notice := rfl
@[simp] theorem State.withdraw_answers (t : TagNo) (s : State) : (s.withdraw t).answers = s.answers := rfl
@[simp] theorem State.withdraw_sent (t : TagNo) (s : State) : (s.withdraw t).sent = s.sent := rfl
@[simp] theorem State.withdraw_pending (t : TagNo) (s : State) : (s.withdraw t).pending = s.pending := rfl

@[simp] theorem State.cleanRequester_grants (s : State) (p : PortNo) : (s.cleanRequester p).grants = s.grants := by simp [State.cleanRequester]
@[simp] theorem State.cleanRequester_expired (s : State) (p : PortNo) : (s.cleanRequester p).expired = s.expired := by simp [State.cleanRequester]
@[simp] theorem State.cleanRequester_lrst (s : State) (p : PortNo) : (s.cleanRequester p).lrst = s.lrst := by simp [State.cleanRequester]
@[simp] theorem State.cleanRequester_tagLast (s : State) (p : PortNo) : (s.cleanRequester p).tagLast = s.tagLast := by simp [State.cleanRequester]
@[simp] theorem State.cleanRequester_queue (s : State) (p : PortNo) : (s.cleanRequester p).queue = s.queue := by simp [State.cleanRequester]
@[simp] theorem State.cleanRequester_writeLast (s : State) (p : PortNo) : (s.cleanRequester p).writeLast = s.writeLast := by simp [State.cleanRequester]
@[simp] theorem State.cleanRequester_slots (s : State) (p : PortNo) : (s.cleanRequester p).slots = s.slots := by simp [State.cleanRequester]
@[simp] theorem State.cleanRequester_order (s : State) (p : PortNo) : (s.cleanRequester p).order = s.order := by simp [State.cleanRequester]
@[simp] theorem State.cleanRequester_timing (s : State) (p : PortNo) : (s.cleanRequester p).timing = s.timing := by simp [State.cleanRequester]
@[simp] theorem State.cleanRequester_notice (s : State) (p : PortNo) : (s.cleanRequester p).notice = s.notice := by simp [State.cleanRequester]
@[simp] theorem State.cleanRequester_link (s : State) (p : PortNo) : (s.cleanRequester p).link = s.link := by simp [State.cleanRequester]
@[simp] theorem State.cleanRequester_answers (s : State) (p : PortNo) : (s.cleanRequester p).answers = s.answers := by simp [State.cleanRequester]
@[simp] theorem State.cleanRequester_sent (s : State) (p : PortNo) : (s.cleanRequester p).sent = s.sent := by simp [State.cleanRequester]
@[simp] theorem State.cleanRequester_pending (s : State) (p : PortNo) : (s.cleanRequester p).pending = s.pending := by simp [State.cleanRequester]

@[simp] theorem State.endSlot_grants (k : SlotNo) (st : Status) (s : State) : (s.endSlot k st).grants = s.grants := rfl
@[simp] theorem State.endSlot_expired (k : SlotNo) (st : Status) (s : State) : (s.endSlot k st).expired = s.expired := rfl
@[simp] theorem State.endSlot_ports (k : SlotNo) (st : Status) (s : State) : (s.endSlot k st).ports = s.ports := rfl
@[simp] theorem State.endSlot_lrst (k : SlotNo) (st : Status) (s : State) : (s.endSlot k st).lrst = s.lrst := rfl
@[simp] theorem State.endSlot_tags (k : SlotNo) (st : Status) (s : State) : (s.endSlot k st).tags = s.tags := rfl
@[simp] theorem State.endSlot_tagLast (k : SlotNo) (st : Status) (s : State) : (s.endSlot k st).tagLast = s.tagLast := rfl
@[simp] theorem State.endSlot_queue (k : SlotNo) (st : Status) (s : State) : (s.endSlot k st).queue = s.queue := rfl
@[simp] theorem State.endSlot_writeLast (k : SlotNo) (st : Status) (s : State) : (s.endSlot k st).writeLast = s.writeLast := rfl
@[simp] theorem State.endSlot_order (k : SlotNo) (st : Status) (s : State) : (s.endSlot k st).order = s.order := rfl
@[simp] theorem State.endSlot_timing (k : SlotNo) (st : Status) (s : State) : (s.endSlot k st).timing = s.timing := rfl
@[simp] theorem State.endSlot_link (k : SlotNo) (st : Status) (s : State) : (s.endSlot k st).link = s.link := rfl
@[simp] theorem State.endSlot_answers (k : SlotNo) (st : Status) (s : State) : (s.endSlot k st).answers = s.answers := rfl
@[simp] theorem State.endSlot_sent (k : SlotNo) (st : Status) (s : State) : (s.endSlot k st).sent = s.sent := rfl
@[simp] theorem State.endSlot_pending (k : SlotNo) (st : Status) (s : State) : (s.endSlot k st).pending = s.pending := rfl

@[simp] theorem State.writeResults_grants (k : SlotNo) (ws : List ResultWord) (s : State) : (s.writeResults k ws).grants = s.grants := rfl
@[simp] theorem State.writeResults_expired (k : SlotNo) (ws : List ResultWord) (s : State) : (s.writeResults k ws).expired = s.expired := rfl
@[simp] theorem State.writeResults_ports (k : SlotNo) (ws : List ResultWord) (s : State) : (s.writeResults k ws).ports = s.ports := rfl
@[simp] theorem State.writeResults_lrst (k : SlotNo) (ws : List ResultWord) (s : State) : (s.writeResults k ws).lrst = s.lrst := rfl
@[simp] theorem State.writeResults_tags (k : SlotNo) (ws : List ResultWord) (s : State) : (s.writeResults k ws).tags = s.tags := rfl
@[simp] theorem State.writeResults_tagLast (k : SlotNo) (ws : List ResultWord) (s : State) : (s.writeResults k ws).tagLast = s.tagLast := rfl
@[simp] theorem State.writeResults_queue (k : SlotNo) (ws : List ResultWord) (s : State) : (s.writeResults k ws).queue = s.queue := rfl
@[simp] theorem State.writeResults_writeLast (k : SlotNo) (ws : List ResultWord) (s : State) : (s.writeResults k ws).writeLast = s.writeLast := rfl
@[simp] theorem State.writeResults_order (k : SlotNo) (ws : List ResultWord) (s : State) : (s.writeResults k ws).order = s.order := rfl
@[simp] theorem State.writeResults_timing (k : SlotNo) (ws : List ResultWord) (s : State) : (s.writeResults k ws).timing = s.timing := rfl
@[simp] theorem State.writeResults_notice (k : SlotNo) (ws : List ResultWord) (s : State) : (s.writeResults k ws).notice = s.notice := rfl
@[simp] theorem State.writeResults_link (k : SlotNo) (ws : List ResultWord) (s : State) : (s.writeResults k ws).link = s.link := rfl
@[simp] theorem State.writeResults_answers (k : SlotNo) (ws : List ResultWord) (s : State) : (s.writeResults k ws).answers = s.answers := rfl
@[simp] theorem State.writeResults_sent (k : SlotNo) (ws : List ResultWord) (s : State) : (s.writeResults k ws).sent = s.sent := rfl
@[simp] theorem State.writeResults_pending (k : SlotNo) (ws : List ResultWord) (s : State) : (s.writeResults k ws).pending = s.pending := rfl

@[simp] theorem State.finish_grants (k : SlotNo) (ws : List ResultWord) (s : State) : (s.finish k ws).grants = s.grants := rfl
@[simp] theorem State.finish_expired (k : SlotNo) (ws : List ResultWord) (s : State) : (s.finish k ws).expired = s.expired := rfl
@[simp] theorem State.finish_ports (k : SlotNo) (ws : List ResultWord) (s : State) : (s.finish k ws).ports = s.ports := rfl
@[simp] theorem State.finish_lrst (k : SlotNo) (ws : List ResultWord) (s : State) : (s.finish k ws).lrst = s.lrst := rfl
@[simp] theorem State.finish_tags (k : SlotNo) (ws : List ResultWord) (s : State) : (s.finish k ws).tags = s.tags := rfl
@[simp] theorem State.finish_tagLast (k : SlotNo) (ws : List ResultWord) (s : State) : (s.finish k ws).tagLast = s.tagLast := rfl
@[simp] theorem State.finish_queue (k : SlotNo) (ws : List ResultWord) (s : State) : (s.finish k ws).queue = s.queue := rfl
@[simp] theorem State.finish_writeLast (k : SlotNo) (ws : List ResultWord) (s : State) : (s.finish k ws).writeLast = s.writeLast := rfl
@[simp] theorem State.finish_order (k : SlotNo) (ws : List ResultWord) (s : State) : (s.finish k ws).order = s.order := rfl
@[simp] theorem State.finish_timing (k : SlotNo) (ws : List ResultWord) (s : State) : (s.finish k ws).timing = s.timing := rfl
@[simp] theorem State.finish_link (k : SlotNo) (ws : List ResultWord) (s : State) : (s.finish k ws).link = s.link := rfl
@[simp] theorem State.finish_answers (k : SlotNo) (ws : List ResultWord) (s : State) : (s.finish k ws).answers = s.answers := rfl
@[simp] theorem State.finish_sent (k : SlotNo) (ws : List ResultWord) (s : State) : (s.finish k ws).sent = s.sent := rfl
@[simp] theorem State.finish_pending (k : SlotNo) (ws : List ResultWord) (s : State) : (s.finish k ws).pending = s.pending := rfl

@[simp] theorem State.wait_grants (k : SlotNo) (ws : List ResultWord) (s : State) : (s.wait k ws).grants = s.grants := rfl
@[simp] theorem State.wait_expired (k : SlotNo) (ws : List ResultWord) (s : State) : (s.wait k ws).expired = s.expired := rfl
@[simp] theorem State.wait_ports (k : SlotNo) (ws : List ResultWord) (s : State) : (s.wait k ws).ports = s.ports := rfl
@[simp] theorem State.wait_lrst (k : SlotNo) (ws : List ResultWord) (s : State) : (s.wait k ws).lrst = s.lrst := rfl
@[simp] theorem State.wait_tags (k : SlotNo) (ws : List ResultWord) (s : State) : (s.wait k ws).tags = s.tags := rfl
@[simp] theorem State.wait_tagLast (k : SlotNo) (ws : List ResultWord) (s : State) : (s.wait k ws).tagLast = s.tagLast := rfl
@[simp] theorem State.wait_queue (k : SlotNo) (ws : List ResultWord) (s : State) : (s.wait k ws).queue = s.queue := rfl
@[simp] theorem State.wait_writeLast (k : SlotNo) (ws : List ResultWord) (s : State) : (s.wait k ws).writeLast = s.writeLast := rfl
@[simp] theorem State.wait_order (k : SlotNo) (ws : List ResultWord) (s : State) : (s.wait k ws).order = s.order := rfl
@[simp] theorem State.wait_timing (k : SlotNo) (ws : List ResultWord) (s : State) : (s.wait k ws).timing = s.timing := rfl
@[simp] theorem State.wait_notice (k : SlotNo) (ws : List ResultWord) (s : State) : (s.wait k ws).notice = s.notice := rfl
@[simp] theorem State.wait_link (k : SlotNo) (ws : List ResultWord) (s : State) : (s.wait k ws).link = s.link := rfl
@[simp] theorem State.wait_answers (k : SlotNo) (ws : List ResultWord) (s : State) : (s.wait k ws).answers = s.answers := rfl
@[simp] theorem State.wait_sent (k : SlotNo) (ws : List ResultWord) (s : State) : (s.wait k ws).sent = s.sent := rfl
@[simp] theorem State.wait_pending (k : SlotNo) (ws : List ResultWord) (s : State) : (s.wait k ws).pending = s.pending := rfl

@[simp] theorem State.collide_grants (k : SlotNo) (s : State) : (s.collide k).grants = s.grants := rfl
@[simp] theorem State.collide_expired (k : SlotNo) (s : State) : (s.collide k).expired = s.expired := rfl
@[simp] theorem State.collide_ports (k : SlotNo) (s : State) : (s.collide k).ports = s.ports := rfl
@[simp] theorem State.collide_lrst (k : SlotNo) (s : State) : (s.collide k).lrst = s.lrst := rfl
@[simp] theorem State.collide_tags (k : SlotNo) (s : State) : (s.collide k).tags = s.tags := rfl
@[simp] theorem State.collide_tagLast (k : SlotNo) (s : State) : (s.collide k).tagLast = s.tagLast := rfl
@[simp] theorem State.collide_queue (k : SlotNo) (s : State) : (s.collide k).queue = s.queue := rfl
@[simp] theorem State.collide_writeLast (k : SlotNo) (s : State) : (s.collide k).writeLast = s.writeLast := rfl
@[simp] theorem State.collide_order (k : SlotNo) (s : State) : (s.collide k).order = s.order := rfl
@[simp] theorem State.collide_timing (k : SlotNo) (s : State) : (s.collide k).timing = s.timing := rfl
@[simp] theorem State.collide_link (k : SlotNo) (s : State) : (s.collide k).link = s.link := rfl
@[simp] theorem State.collide_answers (k : SlotNo) (s : State) : (s.collide k).answers = s.answers := rfl
@[simp] theorem State.collide_sent (k : SlotNo) (s : State) : (s.collide k).sent = s.sent := rfl
@[simp] theorem State.collide_pending (k : SlotNo) (s : State) : (s.collide k).pending = s.pending := rfl

@[simp] theorem State.teardown_lrst (s : State) : (s.teardown).lrst = s.lrst := by simp [State.teardown]
@[simp] theorem State.teardown_sent (s : State) : (s.teardown).sent = s.sent := by simp [State.teardown]
@[simp] theorem State.teardown_pending (s : State) : (s.teardown).pending = s.pending := by simp [State.teardown]

@[simp] theorem State.leaveUp_lrst (s : State) : (s.leaveUp).lrst = s.lrst := by simp [State.leaveUp, State.teardown]
@[simp] theorem State.leaveUp_sent (s : State) : (s.leaveUp).sent = s.sent := by simp [State.leaveUp, State.teardown]
@[simp] theorem State.leaveUp_pending (s : State) : (s.leaveUp).pending = s.pending := by simp [State.leaveUp, State.teardown]

/-! ### Reading back one element: with an index in Fin, and as simp lemmas in simp's own form of such an index -/

theorem State.setRecord_get (i j : GrantIdx) (r : Record) (s : State) :
    (s.setRecord i r).grants[j] = if i = j then r else s.grants[j] := by
  simp [State.setRecord, Vector.getElem_set, Fin.ext_iff]

theorem State.setRecord_getElem (i : GrantIdx) (j : Nat) (hj : j < 64) (r : Record) (s : State) :
    (s.setRecord i r).grants[j] = if i.val = j then r else s.grants[j] := by
  simp [State.setRecord, Vector.getElem_set]

@[simp] theorem State.setRecord_self (i : GrantIdx) (r : Record) (s : State) : (s.setRecord i r).grants[i.val] = r := by
  simp [State.setRecord]

theorem State.setPort_get (p j : PortNo) (q : Port) (s : State) :
    (s.setPort p q).ports[j] = if p = j then q else s.ports[j] := by
  simp [State.setPort, Vector.getElem_set, Fin.ext_iff]

theorem State.setPort_getElem (p : PortNo) (j : Nat) (hj : j < 8) (q : Port) (s : State) :
    (s.setPort p q).ports[j] = if p.val = j then q else s.ports[j] := by
  simp [State.setPort, Vector.getElem_set]

@[simp] theorem State.setPort_self (p : PortNo) (q : Port) (s : State) : (s.setPort p q).ports[p.val] = q := by
  simp [State.setPort]

theorem State.setTag_get (t j : TagNo) (e : TagEntry) (s : State) :
    (s.setTag t e).tags[j] = if t = j then e else s.tags[j] := by
  simp [State.setTag, Vector.getElem_set, Fin.ext_iff]

theorem State.setTag_getElem (t : TagNo) (j : Nat) (hj : j < 32) (e : TagEntry) (s : State) :
    (s.setTag t e).tags[j] = if t.val = j then e else s.tags[j] := by
  simp [State.setTag, Vector.getElem_set]

@[simp] theorem State.setTag_self (t : TagNo) (e : TagEntry) (s : State) : (s.setTag t e).tags[t.val] = e := by
  simp [State.setTag]

theorem State.setSlot_get (k j : SlotNo) (sl : Slot) (s : State) :
    (s.setSlot k sl).slots[j] = if k = j then sl else s.slots[j] := by
  simp [State.setSlot, Vector.getElem_set, Fin.ext_iff]

theorem State.setSlot_getElem (k : SlotNo) (j : Nat) (hj : j < 4) (sl : Slot) (s : State) :
    (s.setSlot k sl).slots[j] = if k.val = j then sl else s.slots[j] := by
  simp [State.setSlot, Vector.getElem_set]

@[simp] theorem State.setSlot_self (k : SlotNo) (sl : Slot) (s : State) : (s.setSlot k sl).slots[k.val] = sl := by
  simp [State.setSlot]

theorem State.setGrant_get (i j : GrantIdx) (g : Grant) (s : State) :
    (s.setGrant i g).grants[j] = if i = j then { s.grants[i] with grant := some g } else s.grants[j] :=
  State.setRecord_get i j _ s

theorem State.setGrant_getElem (i : GrantIdx) (j : Nat) (hj : j < 64) (g : Grant) (s : State) :
    (s.setGrant i g).grants[j] = if i.val = j then { s.grants[i] with grant := some g } else s.grants[j] :=
  State.setRecord_getElem i j hj _ s

@[simp] theorem State.setGrant_self (i : GrantIdx) (g : Grant) (s : State) :
    (s.setGrant i g).grants[i.val] = { s.grants[i] with grant := some g } :=
  State.setRecord_self i _ s

/-! ### The touched parts of the notice unit and the link interface -/

@[simp] theorem State.setCauses_status (c : CauseSet) (s : State) : (s.setCauses c).notice.status = s.notice.status ||| c := rfl
@[simp] theorem State.setCauses_enable (c : CauseSet) (s : State) : (s.setCauses c).notice.enable = s.notice.enable := rfl
@[simp] theorem State.setCauses_master (c : CauseSet) (s : State) : (s.setCauses c).notice.masterEnable = s.notice.masterEnable := rfl
@[simp] theorem State.setCauses_count (c : CauseSet) (s : State) : (s.setCauses c).notice.eventCount = s.notice.eventCount := rfl
@[simp] theorem State.setCauses_timer (c : CauseSet) (s : State) : (s.setCauses c).notice.holdoffTimer = s.notice.holdoffTimer := rfl
@[simp] theorem State.joinOutbound_up (r : Request) (s : State) : (s.joinOutbound r).link.up = s.link.up := rfl
@[simp] theorem State.joinOutbound_outbound (r : Request) (s : State) :
    (s.joinOutbound r).link.outbound = s.link.outbound ++ [r] := rfl
@[simp] theorem State.answer_answers (p : PortNo) (a : Answer) (s : State) : (s.answer p a).answers = s.answers ++ [(p, a)] := rfl

end Sys2Proof.Machine
end

