-- ==== Sys2Proof/Laws/Frames.lean ====
section
/-! SUPPORT. The frames of the shared operations and of the commands' changes: the fields of State that each leaves as
they are, all simp lemmas. -/

namespace Sys2Proof.Machine

/-- A fold keeps what each of its steps keeps. -/
theorem foldl_keeps {α β : Type} (f : State → α → State) (part : State → β) (h : ∀ s a, part (f s a) = part s) :
    ∀ (l : List α) (s : State), part (l.foldl f s) = part s
  | [], _ => rfl
  | a :: l, s => (foldl_keeps f part h l (f s a)).trans (h s a)

@[simp] theorem State.handMessage_grants (s : State) : (s.handMessage).grants = s.grants := by
  unfold State.handMessage
  split <;> rfl
@[simp] theorem State.handMessage_expired (s : State) : (s.handMessage).expired = s.expired := by
  unfold State.handMessage
  split <;> rfl
@[simp] theorem State.handMessage_ports (s : State) : (s.handMessage).ports = s.ports := by
  unfold State.handMessage
  split <;> rfl
@[simp] theorem State.handMessage_lrst (s : State) : (s.handMessage).lrst = s.lrst := by
  unfold State.handMessage
  split <;> rfl
@[simp] theorem State.handMessage_tags (s : State) : (s.handMessage).tags = s.tags := by
  unfold State.handMessage
  split <;> rfl
@[simp] theorem State.handMessage_tagLast (s : State) : (s.handMessage).tagLast = s.tagLast := by
  unfold State.handMessage
  split <;> rfl
@[simp] theorem State.handMessage_queue (s : State) : (s.handMessage).queue = s.queue := by
  unfold State.handMessage
  split <;> rfl
@[simp] theorem State.handMessage_writeLast (s : State) : (s.handMessage).writeLast = s.writeLast := by
  unfold State.handMessage
  split <;> rfl
@[simp] theorem State.handMessage_slots (s : State) : (s.handMessage).slots = s.slots := by
  unfold State.handMessage
  split <;> rfl
@[simp] theorem State.handMessage_order (s : State) : (s.handMessage).order = s.order := by
  unfold State.handMessage
  split <;> rfl
@[simp] theorem State.handMessage_timing (s : State) : (s.handMessage).timing = s.timing := by
  unfold State.handMessage
  split <;> rfl
@[simp] theorem State.handMessage_notice (s : State) : (s.handMessage).notice = s.notice := by
  unfold State.handMessage
  split <;> rfl
@[simp] theorem State.handMessage_answers (s : State) : (s.handMessage).answers = s.answers := by
  unfold State.handMessage
  split <;> rfl
@[simp] theorem State.handMessage_sent (s : State) : (s.handMessage).sent = s.sent := by
  unfold State.handMessage
  split <;> rfl
@[simp] theorem State.handMessage_pending (s : State) : (s.handMessage).pending = s.pending := by
  unfold State.handMessage
  split <;> rfl

@[simp] theorem State.sendAttempt_grants (s : State) : (s.sendAttempt).grants = s.grants := by
  unfold State.sendAttempt
  split <;> [split; skip] <;> simp
@[simp] theorem State.sendAttempt_expired (s : State) : (s.sendAttempt).expired = s.expired := by
  unfold State.sendAttempt
  split <;> [split; skip] <;> simp
@[simp] theorem State.sendAttempt_ports (s : State) : (s.sendAttempt).ports = s.ports := by
  unfold State.sendAttempt
  split <;> [split; skip] <;> simp
@[simp] theorem State.sendAttempt_lrst (s : State) : (s.sendAttempt).lrst = s.lrst := by
  unfold State.sendAttempt
  split <;> [split; skip] <;> simp
@[simp] theorem State.sendAttempt_tags (s : State) : (s.sendAttempt).tags = s.tags := by
  unfold State.sendAttempt
  split <;> [split; skip] <;> simp
@[simp] theorem State.sendAttempt_tagLast (s : State) : (s.sendAttempt).tagLast = s.tagLast := by
  unfold State.sendAttempt
  split <;> [split; skip] <;> simp
@[simp] theorem State.sendAttempt_queue (s : State) : (s.sendAttempt).queue = s.queue := by
  unfold State.sendAttempt
  split <;> [split; skip] <;> simp
@[simp] theorem State.sendAttempt_writeLast (s : State) : (s.sendAttempt).writeLast = s.writeLast := by
  unfold State.sendAttempt
  split <;> [split; skip] <;> simp
@[simp] theorem State.sendAttempt_slots (s : State) : (s.sendAttempt).slots = s.slots := by
  unfold State.sendAttempt
  split <;> [split; skip] <;> simp
@[simp] theorem State.sendAttempt_order (s : State) : (s.sendAttempt).order = s.order := by
  unfold State.sendAttempt
  split <;> [split; skip] <;> simp
@[simp] theorem State.sendAttempt_timing (s : State) : (s.sendAttempt).timing = s.timing := by
  unfold State.sendAttempt
  split <;> [split; skip] <;> simp
@[simp] theorem State.sendAttempt_answers (s : State) : (s.sendAttempt).answers = s.answers := by
  unfold State.sendAttempt
  split <;> [split; skip] <;> simp
@[simp] theorem State.sendAttempt_sent (s : State) : (s.sendAttempt).sent = s.sent := by
  unfold State.sendAttempt
  split <;> [split; skip] <;> simp
@[simp] theorem State.sendAttempt_pending (s : State) : (s.sendAttempt).pending = s.pending := by
  unfold State.sendAttempt
  split <;> [split; skip] <;> simp

@[simp] theorem State.report_grants (w : Option SlotNo) (st : Status) (s : State) : (s.report w st).grants = s.grants := by
  cases w <;> simp [State.report]
@[simp] theorem State.report_expired (w : Option SlotNo) (st : Status) (s : State) : (s.report w st).expired = s.expired := by
  cases w <;> simp [State.report]
@[simp] theorem State.report_ports (w : Option SlotNo) (st : Status) (s : State) : (s.report w st).ports = s.ports := by
  cases w <;> simp [State.report]
@[simp] theorem State.report_lrst (w : Option SlotNo) (st : Status) (s : State) : (s.report w st).lrst = s.lrst := by
  cases w <;> simp [State.report]
@[simp] theorem State.report_tags (w : Option SlotNo) (st : Status) (s : State) : (s.report w st).tags = s.tags := by
  cases w <;> simp [State.report]
@[simp] theorem State.report_tagLast (w : Option SlotNo) (st : Status) (s : State) : (s.report w st).tagLast = s.tagLast := by
  cases w <;> simp [State.report]
@[simp] theorem State.report_queue (w : Option SlotNo) (st : Status) (s : State) : (s.report w st).queue = s.queue := by
  cases w <;> simp [State.report]
@[simp] theorem State.report_writeLast (w : Option SlotNo) (st : Status) (s : State) : (s.report w st).writeLast = s.writeLast := by
  cases w <;> simp [State.report]
@[simp] theorem State.report_order (w : Option SlotNo) (st : Status) (s : State) : (s.report w st).order = s.order := by
  cases w <;> simp [State.report]
@[simp] theorem State.report_timing (w : Option SlotNo) (st : Status) (s : State) : (s.report w st).timing = s.timing := by
  cases w <;> simp [State.report]
@[simp] theorem State.report_link (w : Option SlotNo) (st : Status) (s : State) : (s.report w st).link = s.link := by
  cases w <;> simp [State.report]
@[simp] theorem State.report_answers (w : Option SlotNo) (st : Status) (s : State) : (s.report w st).answers = s.answers := by
  cases w <;> simp [State.report]
@[simp] theorem State.report_sent (w : Option SlotNo) (st : Status) (s : State) : (s.report w st).sent = s.sent := by
  cases w <;> simp [State.report]
@[simp] theorem State.report_pending (w : Option SlotNo) (st : Status) (s : State) : (s.report w st).pending = s.pending := by
  cases w <;> simp [State.report]

@[simp] theorem State.freeGrant_expired (i : GrantIdx) (s : State) : (s.freeGrant i).expired = s.expired := by
  unfold State.freeGrant
  split <;> simp
@[simp] theorem State.freeGrant_ports (i : GrantIdx) (s : State) : (s.freeGrant i).ports = s.ports := by
  unfold State.freeGrant
  split <;> simp
@[simp] theorem State.freeGrant_lrst (i : GrantIdx) (s : State) : (s.freeGrant i).lrst = s.lrst := by
  unfold State.freeGrant
  split <;> simp
@[simp] theorem State.freeGrant_tags (i : GrantIdx) (s : State) : (s.freeGrant i).tags = s.tags := by
  unfold State.freeGrant
  split <;> simp
@[simp] theorem State.freeGrant_tagLast (i : GrantIdx) (s : State) : (s.freeGrant i).tagLast = s.tagLast := by
  unfold State.freeGrant
  split <;> simp
@[simp] theorem State.freeGrant_queue (i : GrantIdx) (s : State) : (s.freeGrant i).queue = s.queue := by
  unfold State.freeGrant
  split <;> simp
@[simp] theorem State.freeGrant_writeLast (i : GrantIdx) (s : State) : (s.freeGrant i).writeLast = s.writeLast := by
  unfold State.freeGrant
  split <;> simp
@[simp] theorem State.freeGrant_order (i : GrantIdx) (s : State) : (s.freeGrant i).order = s.order := by
  unfold State.freeGrant
  split <;> simp
@[simp] theorem State.freeGrant_timing (i : GrantIdx) (s : State) : (s.freeGrant i).timing = s.timing := by
  unfold State.freeGrant
  split <;> simp
@[simp] theorem State.freeGrant_link (i : GrantIdx) (s : State) : (s.freeGrant i).link = s.link := by
  unfold State.freeGrant
  split <;> simp
@[simp] theorem State.freeGrant_answers (i : GrantIdx) (s : State) : (s.freeGrant i).answers = s.answers := by
  unfold State.freeGrant
  split <;> simp
@[simp] theorem State.freeGrant_sent (i : GrantIdx) (s : State) : (s.freeGrant i).sent = s.sent := by
  unfold State.freeGrant
  split <;> simp
@[simp] theorem State.freeGrant_pending (i : GrantIdx) (s : State) : (s.freeGrant i).pending = s.pending := by
  unfold State.freeGrant
  split <;> simp

@[simp] theorem State.fallCurrent_expired (i : GrantIdx) (g : Grant) (s : State) : (s.fallCurrent i g).expired = s.expired := by
  unfold State.fallCurrent
  simp only []
  split <;> simp
@[simp] theorem State.fallCurrent_ports (i : GrantIdx) (g : Grant) (s : State) : (s.fallCurrent i g).ports = s.ports := by
  unfold State.fallCurrent
  simp only []
  split <;> simp
@[simp] theorem State.fallCurrent_lrst (i : GrantIdx) (g : Grant) (s : State) : (s.fallCurrent i g).lrst = s.lrst := by
  unfold State.fallCurrent
  simp only []
  split <;> simp
@[simp] theorem State.fallCurrent_tags (i : GrantIdx) (g : Grant) (s : State) : (s.fallCurrent i g).tags = s.tags := by
  unfold State.fallCurrent
  simp only []
  split <;> simp
@[simp] theorem State.fallCurrent_tagLast (i : GrantIdx) (g : Grant) (s : State) : (s.fallCurrent i g).tagLast = s.tagLast := by
  unfold State.fallCurrent
  simp only []
  split <;> simp
@[simp] theorem State.fallCurrent_queue (i : GrantIdx) (g : Grant) (s : State) : (s.fallCurrent i g).queue = s.queue := by
  unfold State.fallCurrent
  simp only []
  split <;> simp
@[simp] theorem State.fallCurrent_writeLast (i : GrantIdx) (g : Grant) (s : State) : (s.fallCurrent i g).writeLast = s.writeLast := by
  unfold State.fallCurrent
  simp only []
  split <;> simp
@[simp] theorem State.fallCurrent_order (i : GrantIdx) (g : Grant) (s : State) : (s.fallCurrent i g).order = s.order := by
  unfold State.fallCurrent
  simp only []
  split <;> simp
@[simp] theorem State.fallCurrent_timing (i : GrantIdx) (g : Grant) (s : State) : (s.fallCurrent i g).timing = s.timing := by
  unfold State.fallCurrent
  simp only []
  split <;> simp
@[simp] theorem State.fallCurrent_link (i : GrantIdx) (g : Grant) (s : State) : (s.fallCurrent i g).link = s.link := by
  unfold State.fallCurrent
  simp only []
  split <;> simp
@[simp] theorem State.fallCurrent_answers (i : GrantIdx) (g : Grant) (s : State) : (s.fallCurrent i g).answers = s.answers := by
  unfold State.fallCurrent
  simp only []
  split <;> simp
@[simp] theorem State.fallCurrent_sent (i : GrantIdx) (g : Grant) (s : State) : (s.fallCurrent i g).sent = s.sent := by
  unfold State.fallCurrent
  simp only []
  split <;> simp
@[simp] theorem State.fallCurrent_pending (i : GrantIdx) (g : Grant) (s : State) : (s.fallCurrent i g).pending = s.pending := by
  unfold State.fallCurrent
  simp only []
  split <;> simp

@[simp] theorem State.fallPrevious_expired (i : GrantIdx) (g : Grant) (p : PrevGeneration) (s : State) : (s.fallPrevious i g p).expired = s.expired := by
  unfold State.fallPrevious
  simp only []
  (repeat' split) <;> simp
@[simp] theorem State.fallPrevious_ports (i : GrantIdx) (g : Grant) (p : PrevGeneration) (s : State) : (s.fallPrevious i g p).ports = s.ports := by
  unfold State.fallPrevious
  simp only []
  (repeat' split) <;> simp
@[simp] theorem State.fallPrevious_lrst (i : GrantIdx) (g : Grant) (p : PrevGeneration) (s : State) : (s.fallPrevious i g p).lrst = s.lrst := by
  unfold State.fallPrevious
  simp only []
  (repeat' split) <;> simp
@[simp] theorem State.fallPrevious_tags (i : GrantIdx) (g : Grant) (p : PrevGeneration) (s : State) : (s.fallPrevious i g p).tags = s.tags := by
  unfold State.fallPrevious
  simp only []
  (repeat' split) <;> simp
@[simp] theorem State.fallPrevious_tagLast (i : GrantIdx) (g : Grant) (p : PrevGeneration) (s : State) : (s.fallPrevious i g p).tagLast = s.tagLast := by
  unfold State.fallPrevious
  simp only []
  (repeat' split) <;> simp
@[simp] theorem State.fallPrevious_queue (i : GrantIdx) (g : Grant) (p : PrevGeneration) (s : State) : (s.fallPrevious i g p).queue = s.queue := by
  unfold State.fallPrevious
  simp only []
  (repeat' split) <;> simp
@[simp] theorem State.fallPrevious_writeLast (i : GrantIdx) (g : Grant) (p : PrevGeneration) (s : State) : (s.fallPrevious i g p).writeLast = s.writeLast := by
  unfold State.fallPrevious
  simp only []
  (repeat' split) <;> simp
@[simp] theorem State.fallPrevious_order (i : GrantIdx) (g : Grant) (p : PrevGeneration) (s : State) : (s.fallPrevious i g p).order = s.order := by
  unfold State.fallPrevious
  simp only []
  (repeat' split) <;> simp
@[simp] theorem State.fallPrevious_timing (i : GrantIdx) (g : Grant) (p : PrevGeneration) (s : State) : (s.fallPrevious i g p).timing = s.timing := by
  unfold State.fallPrevious
  simp only []
  (repeat' split) <;> simp
@[simp] theorem State.fallPrevious_link (i : GrantIdx) (g : Grant) (p : PrevGeneration) (s : State) : (s.fallPrevious i g p).link = s.link := by
  unfold State.fallPrevious
  simp only []
  (repeat' split) <;> simp
@[simp] theorem State.fallPrevious_answers (i : GrantIdx) (g : Grant) (p : PrevGeneration) (s : State) : (s.fallPrevious i g p).answers = s.answers := by
  unfold State.fallPrevious
  simp only []
  (repeat' split) <;> simp
@[simp] theorem State.fallPrevious_sent (i : GrantIdx) (g : Grant) (p : PrevGeneration) (s : State) : (s.fallPrevious i g p).sent = s.sent := by
  unfold State.fallPrevious
  simp only []
  (repeat' split) <;> simp
@[simp] theorem State.fallPrevious_pending (i : GrantIdx) (g : Grant) (p : PrevGeneration) (s : State) : (s.fallPrevious i g p).pending = s.pending := by
  unfold State.fallPrevious
  simp only []
  (repeat' split) <;> simp

@[simp] theorem State.fall_expired (i : GrantIdx) (n : GenNo) (s : State) : (s.fall i n).expired = s.expired := by
  unfold State.fall
  (repeat' split) <;> simp
@[simp] theorem State.fall_ports (i : GrantIdx) (n : GenNo) (s : State) : (s.fall i n).ports = s.ports := by
  unfold State.fall
  (repeat' split) <;> simp
@[simp] theorem State.fall_lrst (i : GrantIdx) (n : GenNo) (s : State) : (s.fall i n).lrst = s.lrst := by
  unfold State.fall
  (repeat' split) <;> simp
@[simp] theorem State.fall_tags (i : GrantIdx) (n : GenNo) (s : State) : (s.fall i n).tags = s.tags := by
  unfold State.fall
  (repeat' split) <;> simp
@[simp] theorem State.fall_tagLast (i : GrantIdx) (n : GenNo) (s : State) : (s.fall i n).tagLast = s.tagLast := by
  unfold State.fall
  (repeat' split) <;> simp
@[simp] theorem State.fall_queue (i : GrantIdx) (n : GenNo) (s : State) : (s.fall i n).queue = s.queue := by
  unfold State.fall
  (repeat' split) <;> simp
@[simp] theorem State.fall_writeLast (i : GrantIdx) (n : GenNo) (s : State) : (s.fall i n).writeLast = s.writeLast := by
  unfold State.fall
  (repeat' split) <;> simp
@[simp] theorem State.fall_order (i : GrantIdx) (n : GenNo) (s : State) : (s.fall i n).order = s.order := by
  unfold State.fall
  (repeat' split) <;> simp
@[simp] theorem State.fall_timing (i : GrantIdx) (n : GenNo) (s : State) : (s.fall i n).timing = s.timing := by
  unfold State.fall
  (repeat' split) <;> simp
@[simp] theorem State.fall_link (i : GrantIdx) (n : GenNo) (s : State) : (s.fall i n).link = s.link := by
  unfold State.fall
  (repeat' split) <;> simp
@[simp] theorem State.fall_answers (i : GrantIdx) (n : GenNo) (s : State) : (s.fall i n).answers = s.answers := by
  unfold State.fall
  (repeat' split) <;> simp
@[simp] theorem State.fall_sent (i : GrantIdx) (n : GenNo) (s : State) : (s.fall i n).sent = s.sent := by
  unfold State.fall
  (repeat' split) <;> simp
@[simp] theorem State.fall_pending (i : GrantIdx) (n : GenNo) (s : State) : (s.fall i n).pending = s.pending := by
  unfold State.fall
  (repeat' split) <;> simp

@[simp] theorem State.capture_grants (p : PortNo) (f : FaultRecord) (s : State) : (s.capture p f).grants = s.grants := by
  unfold State.capture
  simp only []
  split <;> simp
@[simp] theorem State.capture_expired (p : PortNo) (f : FaultRecord) (s : State) : (s.capture p f).expired = s.expired := by
  unfold State.capture
  simp only []
  split <;> simp
@[simp] theorem State.capture_lrst (p : PortNo) (f : FaultRecord) (s : State) : (s.capture p f).lrst = s.lrst := by
  unfold State.capture
  simp only []
  split <;> simp
@[simp] theorem State.capture_tags (p : PortNo) (f : FaultRecord) (s : State) : (s.capture p f).tags = s.tags := by
  unfold State.capture
  simp only []
  split <;> simp
@[simp] theorem State.capture_tagLast (p : PortNo) (f : FaultRecord) (s : State) : (s.capture p f).tagLast = s.tagLast := by
  unfold State.capture
  simp only []
  split <;> simp
@[simp] theorem State.capture_queue (p : PortNo) (f : FaultRecord) (s : State) : (s.capture p f).queue = s.queue := by
  unfold State.capture
  simp only []
  split <;> simp
@[simp] theorem State.capture_writeLast (p : PortNo) (f : FaultRecord) (s : State) : (s.capture p f).writeLast = s.writeLast := by
  unfold State.capture
  simp only []
  split <;> simp
@[simp] theorem State.capture_slots (p : PortNo) (f : FaultRecord) (s : State) : (s.capture p f).slots = s.slots := by
  unfold State.capture
  simp only []
  split <;> simp
@[simp] theorem State.capture_order (p : PortNo) (f : FaultRecord) (s : State) : (s.capture p f).order = s.order := by
  unfold State.capture
  simp only []
  split <;> simp
@[simp] theorem State.capture_timing (p : PortNo) (f : FaultRecord) (s : State) : (s.capture p f).timing = s.timing := by
  unfold State.capture
  simp only []
  split <;> simp
@[simp] theorem State.capture_link (p : PortNo) (f : FaultRecord) (s : State) : (s.capture p f).link = s.link := by
  unfold State.capture
  simp only []
  split <;> simp
@[simp] theorem State.capture_answers (p : PortNo) (f : FaultRecord) (s : State) : (s.capture p f).answers = s.answers := by
  unfold State.capture
  simp only []
  split <;> simp
@[simp] theorem State.capture_sent (p : PortNo) (f : FaultRecord) (s : State) : (s.capture p f).sent = s.sent := by
  unfold State.capture
  simp only []
  split <;> simp
@[simp] theorem State.capture_pending (p : PortNo) (f : FaultRecord) (s : State) : (s.capture p f).pending = s.pending := by
  unfold State.capture
  simp only []
  split <;> simp

@[simp] theorem State.refuseHead_grants (p : PortNo) (a : Access) (r : Result) (h : Option Handle) (s : State) : (s.refuseHead p a r h).grants = s.grants := by
  unfold State.refuseHead
  simp only []
  split <;> simp
@[simp] theorem State.refuseHead_expired (p : PortNo) (a : Access) (r : Result) (h : Option Handle) (s : State) : (s.refuseHead p a r h).expired = s.expired := by
  unfold State.refuseHead
  simp only []
  split <;> simp
@[simp] theorem State.refuseHead_lrst (p : PortNo) (a : Access) (r : Result) (h : Option Handle) (s : State) : (s.refuseHead p a r h).lrst = s.lrst := by
  unfold State.refuseHead
  simp only []
  split <;> simp
@[simp] theorem State.refuseHead_tags (p : PortNo) (a : Access) (r : Result) (h : Option Handle) (s : State) : (s.refuseHead p a r h).tags = s.tags := by
  unfold State.refuseHead
  simp only []
  split <;> simp
@[simp] theorem State.refuseHead_tagLast (p : PortNo) (a : Access) (r : Result) (h : Option Handle) (s : State) : (s.refuseHead p a r h).tagLast = s.tagLast := by
  unfold State.refuseHead
  simp only []
  split <;> simp
@[simp] theorem State.refuseHead_queue (p : PortNo) (a : Access) (r : Result) (h : Option Handle) (s : State) : (s.refuseHead p a r h).queue = s.queue := by
  unfold State.refuseHead
  simp only []
  split <;> simp
@[simp] theorem State.refuseHead_writeLast (p : PortNo) (a : Access) (r : Result) (h : Option Handle) (s : State) : (s.refuseHead p a r h).writeLast = s.writeLast := by
  unfold State.refuseHead
  simp only []
  split <;> simp
@[simp] theorem State.refuseHead_slots (p : PortNo) (a : Access) (r : Result) (h : Option Handle) (s : State) : (s.refuseHead p a r h).slots = s.slots := by
  unfold State.refuseHead
  simp only []
  split <;> simp
@[simp] theorem State.refuseHead_order (p : PortNo) (a : Access) (r : Result) (h : Option Handle) (s : State) : (s.refuseHead p a r h).order = s.order := by
  unfold State.refuseHead
  simp only []
  split <;> simp
@[simp] theorem State.refuseHead_timing (p : PortNo) (a : Access) (r : Result) (h : Option Handle) (s : State) : (s.refuseHead p a r h).timing = s.timing := by
  unfold State.refuseHead
  simp only []
  split <;> simp
@[simp] theorem State.refuseHead_link (p : PortNo) (a : Access) (r : Result) (h : Option Handle) (s : State) : (s.refuseHead p a r h).link = s.link := by
  unfold State.refuseHead
  simp only []
  split <;> simp
@[simp] theorem State.refuseHead_sent (p : PortNo) (a : Access) (r : Result) (h : Option Handle) (s : State) : (s.refuseHead p a r h).sent = s.sent := by
  unfold State.refuseHead
  simp only []
  split <;> simp
@[simp] theorem State.refuseHead_pending (p : PortNo) (a : Access) (r : Result) (h : Option Handle) (s : State) : (s.refuseHead p a r h).pending = s.pending := by
  unfold State.refuseHead
  simp only []
  split <;> simp

@[simp] theorem State.keepSnapshot_grants (k : SlotNo) (sn : Snapshot) (s : State) : (s.keepSnapshot k sn).grants = s.grants := by
  unfold State.keepSnapshot
  split <;> simp
@[simp] theorem State.keepSnapshot_expired (k : SlotNo) (sn : Snapshot) (s : State) : (s.keepSnapshot k sn).expired = s.expired := by
  unfold State.keepSnapshot
  split <;> simp
@[simp] theorem State.keepSnapshot_ports (k : SlotNo) (sn : Snapshot) (s : State) : (s.keepSnapshot k sn).ports = s.ports := by
  unfold State.keepSnapshot
  split <;> simp
@[simp] theorem State.keepSnapshot_lrst (k : SlotNo) (sn : Snapshot) (s : State) : (s.keepSnapshot k sn).lrst = s.lrst := by
  unfold State.keepSnapshot
  split <;> simp
@[simp] theorem State.keepSnapshot_tags (k : SlotNo) (sn : Snapshot) (s : State) : (s.keepSnapshot k sn).tags = s.tags := by
  unfold State.keepSnapshot
  split <;> simp
@[simp] theorem State.keepSnapshot_tagLast (k : SlotNo) (sn : Snapshot) (s : State) : (s.keepSnapshot k sn).tagLast = s.tagLast := by
  unfold State.keepSnapshot
  split <;> simp
@[simp] theorem State.keepSnapshot_queue (k : SlotNo) (sn : Snapshot) (s : State) : (s.keepSnapshot k sn).queue = s.queue := by
  unfold State.keepSnapshot
  split <;> simp
@[simp] theorem State.keepSnapshot_writeLast (k : SlotNo) (sn : Snapshot) (s : State) : (s.keepSnapshot k sn).writeLast = s.writeLast := by
  unfold State.keepSnapshot
  split <;> simp
@[simp] theorem State.keepSnapshot_order (k : SlotNo) (sn : Snapshot) (s : State) : (s.keepSnapshot k sn).order = s.order := by
  unfold State.keepSnapshot
  split <;> simp
@[simp] theorem State.keepSnapshot_timing (k : SlotNo) (sn : Snapshot) (s : State) : (s.keepSnapshot k sn).timing = s.timing := by
  unfold State.keepSnapshot
  split <;> simp
@[simp] theorem State.keepSnapshot_link (k : SlotNo) (sn : Snapshot) (s : State) : (s.keepSnapshot k sn).link = s.link := by
  unfold State.keepSnapshot
  split <;> simp
@[simp] theorem State.keepSnapshot_answers (k : SlotNo) (sn : Snapshot) (s : State) : (s.keepSnapshot k sn).answers = s.answers := by
  unfold State.keepSnapshot
  split <;> simp
@[simp] theorem State.keepSnapshot_sent (k : SlotNo) (sn : Snapshot) (s : State) : (s.keepSnapshot k sn).sent = s.sent := by
  unfold State.keepSnapshot
  split <;> simp
@[simp] theorem State.keepSnapshot_pending (k : SlotNo) (sn : Snapshot) (s : State) : (s.keepSnapshot k sn).pending = s.pending := by
  unfold State.keepSnapshot
  split <;> simp

@[simp] theorem State.tagLeavesSlot_grants (t : TagNo) (k : SlotNo) (s : State) : (State.tagLeavesSlot t s k).grants = s.grants := by
  unfold State.tagLeavesSlot
  (repeat' split) <;> simp
@[simp] theorem State.tagLeavesSlot_expired (t : TagNo) (k : SlotNo) (s : State) : (State.tagLeavesSlot t s k).expired = s.expired := by
  unfold State.tagLeavesSlot
  (repeat' split) <;> simp
@[simp] theorem State.tagLeavesSlot_ports (t : TagNo) (k : SlotNo) (s : State) : (State.tagLeavesSlot t s k).ports = s.ports := by
  unfold State.tagLeavesSlot
  (repeat' split) <;> simp
@[simp] theorem State.tagLeavesSlot_lrst (t : TagNo) (k : SlotNo) (s : State) : (State.tagLeavesSlot t s k).lrst = s.lrst := by
  unfold State.tagLeavesSlot
  (repeat' split) <;> simp
@[simp] theorem State.tagLeavesSlot_tags (t : TagNo) (k : SlotNo) (s : State) : (State.tagLeavesSlot t s k).tags = s.tags := by
  unfold State.tagLeavesSlot
  (repeat' split) <;> simp
@[simp] theorem State.tagLeavesSlot_tagLast (t : TagNo) (k : SlotNo) (s : State) : (State.tagLeavesSlot t s k).tagLast = s.tagLast := by
  unfold State.tagLeavesSlot
  (repeat' split) <;> simp
@[simp] theorem State.tagLeavesSlot_queue (t : TagNo) (k : SlotNo) (s : State) : (State.tagLeavesSlot t s k).queue = s.queue := by
  unfold State.tagLeavesSlot
  (repeat' split) <;> simp
@[simp] theorem State.tagLeavesSlot_writeLast (t : TagNo) (k : SlotNo) (s : State) : (State.tagLeavesSlot t s k).writeLast = s.writeLast := by
  unfold State.tagLeavesSlot
  (repeat' split) <;> simp
@[simp] theorem State.tagLeavesSlot_order (t : TagNo) (k : SlotNo) (s : State) : (State.tagLeavesSlot t s k).order = s.order := by
  unfold State.tagLeavesSlot
  (repeat' split) <;> simp
@[simp] theorem State.tagLeavesSlot_timing (t : TagNo) (k : SlotNo) (s : State) : (State.tagLeavesSlot t s k).timing = s.timing := by
  unfold State.tagLeavesSlot
  (repeat' split) <;> simp
@[simp] theorem State.tagLeavesSlot_link (t : TagNo) (k : SlotNo) (s : State) : (State.tagLeavesSlot t s k).link = s.link := by
  unfold State.tagLeavesSlot
  (repeat' split) <;> simp
@[simp] theorem State.tagLeavesSlot_answers (t : TagNo) (k : SlotNo) (s : State) : (State.tagLeavesSlot t s k).answers = s.answers := by
  unfold State.tagLeavesSlot
  (repeat' split) <;> simp
@[simp] theorem State.tagLeavesSlot_sent (t : TagNo) (k : SlotNo) (s : State) : (State.tagLeavesSlot t s k).sent = s.sent := by
  unfold State.tagLeavesSlot
  (repeat' split) <;> simp
@[simp] theorem State.tagLeavesSlot_pending (t : TagNo) (k : SlotNo) (s : State) : (State.tagLeavesSlot t s k).pending = s.pending := by
  unfold State.tagLeavesSlot
  (repeat' split) <;> simp

@[simp] theorem State.entryLeavesSlot_grants (k : SlotNo) (s : State) : (s.entryLeavesSlot k).grants = s.grants := by
  unfold State.entryLeavesSlot
  simp only []
  (repeat' split) <;> simp
@[simp] theorem State.entryLeavesSlot_expired (k : SlotNo) (s : State) : (s.entryLeavesSlot k).expired = s.expired := by
  unfold State.entryLeavesSlot
  simp only []
  (repeat' split) <;> simp
@[simp] theorem State.entryLeavesSlot_ports (k : SlotNo) (s : State) : (s.entryLeavesSlot k).ports = s.ports := by
  unfold State.entryLeavesSlot
  simp only []
  (repeat' split) <;> simp
@[simp] theorem State.entryLeavesSlot_lrst (k : SlotNo) (s : State) : (s.entryLeavesSlot k).lrst = s.lrst := by
  unfold State.entryLeavesSlot
  simp only []
  (repeat' split) <;> simp
@[simp] theorem State.entryLeavesSlot_tags (k : SlotNo) (s : State) : (s.entryLeavesSlot k).tags = s.tags := by
  unfold State.entryLeavesSlot
  simp only []
  (repeat' split) <;> simp
@[simp] theorem State.entryLeavesSlot_tagLast (k : SlotNo) (s : State) : (s.entryLeavesSlot k).tagLast = s.tagLast := by
  unfold State.entryLeavesSlot
  simp only []
  (repeat' split) <;> simp
@[simp] theorem State.entryLeavesSlot_queue (k : SlotNo) (s : State) : (s.entryLeavesSlot k).queue = s.queue := by
  unfold State.entryLeavesSlot
  simp only []
  (repeat' split) <;> simp
@[simp] theorem State.entryLeavesSlot_writeLast (k : SlotNo) (s : State) : (s.entryLeavesSlot k).writeLast = s.writeLast := by
  unfold State.entryLeavesSlot
  simp only []
  (repeat' split) <;> simp
@[simp] theorem State.entryLeavesSlot_order (k : SlotNo) (s : State) : (s.entryLeavesSlot k).order = s.order := by
  unfold State.entryLeavesSlot
  simp only []
  (repeat' split) <;> simp
@[simp] theorem State.entryLeavesSlot_timing (k : SlotNo) (s : State) : (s.entryLeavesSlot k).timing = s.timing := by
  unfold State.entryLeavesSlot
  simp only []
  (repeat' split) <;> simp
@[simp] theorem State.entryLeavesSlot_link (k : SlotNo) (s : State) : (s.entryLeavesSlot k).link = s.link := by
  unfold State.entryLeavesSlot
  simp only []
  (repeat' split) <;> simp
@[simp] theorem State.entryLeavesSlot_answers (k : SlotNo) (s : State) : (s.entryLeavesSlot k).answers = s.answers := by
  unfold State.entryLeavesSlot
  simp only []
  (repeat' split) <;> simp
@[simp] theorem State.entryLeavesSlot_sent (k : SlotNo) (s : State) : (s.entryLeavesSlot k).sent = s.sent := by
  unfold State.entryLeavesSlot
  simp only []
  (repeat' split) <;> simp
@[simp] theorem State.entryLeavesSlot_pending (k : SlotNo) (s : State) : (s.entryLeavesSlot k).pending = s.pending := by
  unfold State.entryLeavesSlot
  simp only []
  (repeat' split) <;> simp

@[simp] theorem State.tagLeaves_grants (t : TagNo) (s : State) : (s.tagLeaves t).grants = s.grants := foldl_keeps _ State.grants (fun s k => State.tagLeavesSlot_grants t k s) _ s
@[simp] theorem State.tagLeaves_expired (t : TagNo) (s : State) : (s.tagLeaves t).expired = s.expired := foldl_keeps _ State.expired (fun s k => State.tagLeavesSlot_expired t k s) _ s
@[simp] theorem State.tagLeaves_ports (t : TagNo) (s : State) : (s.tagLeaves t).ports = s.ports := foldl_keeps _ State.ports (fun s k => State.tagLeavesSlot_ports t k s) _ s
@[simp] theorem State.tagLeaves_lrst (t : TagNo) (s : State) : (s.tagLeaves t).lrst = s.lrst := foldl_keeps _ State.lrst (fun s k => State.tagLeavesSlot_lrst t k s) _ s
@[simp] theorem State.tagLeaves_tags (t : TagNo) (s : State) : (s.tagLeaves t).tags = s.tags := foldl_keeps _ State.tags (fun s k => State.tagLeavesSlot_tags t k s) _ s
@[simp] theorem State.tagLeaves_tagLast (t : TagNo) (s : State) : (s.tagLeaves t).tagLast = s.tagLast := foldl_keeps _ State.tagLast (fun s k => State.tagLeavesSlot_tagLast t k s) _ s
@[simp] theorem State.tagLeaves_queue (t : TagNo) (s : State) : (s.tagLeaves t).queue = s.queue := foldl_keeps _ State.queue (fun s k => State.tagLeavesSlot_queue t k s) _ s
@[simp] theorem State.tagLeaves_writeLast (t : TagNo) (s : State) : (s.tagLeaves t).writeLast = s.writeLast := foldl_keeps _ State.writeLast (fun s k => State.tagLeavesSlot_writeLast t k s) _ s
@[simp] theorem State.tagLeaves_order (t : TagNo) (s : State) : (s.tagLeaves t).order = s.order := foldl_keeps _ State.order (fun s k => State.tagLeavesSlot_order t k s) _ s
@[simp] theorem State.tagLeaves_timing (t : TagNo) (s : State) : (s.tagLeaves t).timing = s.timing := foldl_keeps _ State.timing (fun s k => State.tagLeavesSlot_timing t k s) _ s
@[simp] theorem State.tagLeaves_link (t : TagNo) (s : State) : (s.tagLeaves t).link = s.link := foldl_keeps _ State.link (fun s k => State.tagLeavesSlot_link t k s) _ s
@[simp] theorem State.tagLeaves_answers (t : TagNo) (s : State) : (s.tagLeaves t).answers = s.answers := foldl_keeps _ State.answers (fun s k => State.tagLeavesSlot_answers t k s) _ s
@[simp] theorem State.tagLeaves_sent (t : TagNo) (s : State) : (s.tagLeaves t).sent = s.sent := foldl_keeps _ State.sent (fun s k => State.tagLeavesSlot_sent t k s) _ s
@[simp] theorem State.tagLeaves_pending (t : TagNo) (s : State) : (s.tagLeaves t).pending = s.pending := foldl_keeps _ State.pending (fun s k => State.tagLeavesSlot_pending t k s) _ s

@[simp] theorem State.entryLeaves_grants (s : State) : (s.entryLeaves).grants = s.grants := foldl_keeps _ State.grants (fun s k => State.entryLeavesSlot_grants k s) _ s
@[simp] theorem State.entryLeaves_expired (s : State) : (s.entryLeaves).expired = s.expired := foldl_keeps _ State.expired (fun s k => State.entryLeavesSlot_expired k s) _ s
@[simp] theorem State.entryLeaves_ports (s : State) : (s.entryLeaves).ports = s.ports := foldl_keeps _ State.ports (fun s k => State.entryLeavesSlot_ports k s) _ s
@[simp] theorem State.entryLeaves_lrst (s : State) : (s.entryLeaves).lrst = s.lrst := foldl_keeps _ State.lrst (fun s k => State.entryLeavesSlot_lrst k s) _ s
@[simp] theorem State.entryLeaves_tags (s : State) : (s.entryLeaves).tags = s.tags := foldl_keeps _ State.tags (fun s k => State.entryLeavesSlot_tags k s) _ s
@[simp] theorem State.entryLeaves_tagLast (s : State) : (s.entryLeaves).tagLast = s.tagLast := foldl_keeps _ State.tagLast (fun s k => State.entryLeavesSlot_tagLast k s) _ s
@[simp] theorem State.entryLeaves_queue (s : State) : (s.entryLeaves).queue = s.queue := foldl_keeps _ State.queue (fun s k => State.entryLeavesSlot_queue k s) _ s
@[simp] theorem State.entryLeaves_writeLast (s : State) : (s.entryLeaves).writeLast = s.writeLast := foldl_keeps _ State.writeLast (fun s k => State.entryLeavesSlot_writeLast k s) _ s
@[simp] theorem State.entryLeaves_order (s : State) : (s.entryLeaves).order = s.order := foldl_keeps _ State.order (fun s k => State.entryLeavesSlot_order k s) _ s
@[simp] theorem State.entryLeaves_timing (s : State) : (s.entryLeaves).timing = s.timing := foldl_keeps _ State.timing (fun s k => State.entryLeavesSlot_timing k s) _ s
@[simp] theorem State.entryLeaves_link (s : State) : (s.entryLeaves).link = s.link := foldl_keeps _ State.link (fun s k => State.entryLeavesSlot_link k s) _ s
@[simp] theorem State.entryLeaves_answers (s : State) : (s.entryLeaves).answers = s.answers := foldl_keeps _ State.answers (fun s k => State.entryLeavesSlot_answers k s) _ s
@[simp] theorem State.entryLeaves_sent (s : State) : (s.entryLeaves).sent = s.sent := foldl_keeps _ State.sent (fun s k => State.entryLeavesSlot_sent k s) _ s
@[simp] theorem State.entryLeaves_pending (s : State) : (s.entryLeaves).pending = s.pending := foldl_keeps _ State.pending (fun s k => State.entryLeavesSlot_pending k s) _ s

@[simp] theorem State.endRead_grants (r : ReadInfo) (res : Result) (s : State) : (s.endRead r res).grants = s.grants := by
  unfold State.endRead
  simp only []
  (repeat' split) <;> simp
@[simp] theorem State.endRead_expired (r : ReadInfo) (res : Result) (s : State) : (s.endRead r res).expired = s.expired := by
  unfold State.endRead
  simp only []
  (repeat' split) <;> simp
@[simp] theorem State.endRead_lrst (r : ReadInfo) (res : Result) (s : State) : (s.endRead r res).lrst = s.lrst := by
  unfold State.endRead
  simp only []
  (repeat' split) <;> simp
@[simp] theorem State.endRead_tags (r : ReadInfo) (res : Result) (s : State) : (s.endRead r res).tags = s.tags := by
  unfold State.endRead
  simp only []
  (repeat' split) <;> simp
@[simp] theorem State.endRead_tagLast (r : ReadInfo) (res : Result) (s : State) : (s.endRead r res).tagLast = s.tagLast := by
  unfold State.endRead
  simp only []
  (repeat' split) <;> simp
@[simp] theorem State.endRead_queue (r : ReadInfo) (res : Result) (s : State) : (s.endRead r res).queue = s.queue := by
  unfold State.endRead
  simp only []
  (repeat' split) <;> simp
@[simp] theorem State.endRead_writeLast (r : ReadInfo) (res : Result) (s : State) : (s.endRead r res).writeLast = s.writeLast := by
  unfold State.endRead
  simp only []
  (repeat' split) <;> simp
@[simp] theorem State.endRead_slots (r : ReadInfo) (res : Result) (s : State) : (s.endRead r res).slots = s.slots := by
  unfold State.endRead
  simp only []
  (repeat' split) <;> simp
@[simp] theorem State.endRead_order (r : ReadInfo) (res : Result) (s : State) : (s.endRead r res).order = s.order := by
  unfold State.endRead
  simp only []
  (repeat' split) <;> simp
@[simp] theorem State.endRead_timing (r : ReadInfo) (res : Result) (s : State) : (s.endRead r res).timing = s.timing := by
  unfold State.endRead
  simp only []
  (repeat' split) <;> simp
@[simp] theorem State.endRead_link (r : ReadInfo) (res : Result) (s : State) : (s.endRead r res).link = s.link := by
  unfold State.endRead
  simp only []
  (repeat' split) <;> simp
@[simp] theorem State.endRead_sent (r : ReadInfo) (res : Result) (s : State) : (s.endRead r res).sent = s.sent := by
  unfold State.endRead
  simp only []
  (repeat' split) <;> simp
@[simp] theorem State.endRead_pending (r : ReadInfo) (res : Result) (s : State) : (s.endRead r res).pending = s.pending := by
  unfold State.endRead
  simp only []
  (repeat' split) <;> simp

@[simp] theorem State.retire_expired (t : TagNo) (r : ReadInfo) (res : Result) (e : TagEntry) (s : State) : (s.retire t r res e).expired = s.expired := by
  simp [State.retire]
@[simp] theorem State.retire_lrst (t : TagNo) (r : ReadInfo) (res : Result) (e : TagEntry) (s : State) : (s.retire t r res e).lrst = s.lrst := by
  simp [State.retire]
@[simp] theorem State.retire_tagLast (t : TagNo) (r : ReadInfo) (res : Result) (e : TagEntry) (s : State) : (s.retire t r res e).tagLast = s.tagLast := by
  simp [State.retire]
@[simp] theorem State.retire_queue (t : TagNo) (r : ReadInfo) (res : Result) (e : TagEntry) (s : State) : (s.retire t r res e).queue = s.queue := by
  simp [State.retire]
@[simp] theorem State.retire_writeLast (t : TagNo) (r : ReadInfo) (res : Result) (e : TagEntry) (s : State) : (s.retire t r res e).writeLast = s.writeLast := by
  simp [State.retire]
@[simp] theorem State.retire_order (t : TagNo) (r : ReadInfo) (res : Result) (e : TagEntry) (s : State) : (s.retire t r res e).order = s.order := by
  simp [State.retire]
@[simp] theorem State.retire_timing (t : TagNo) (r : ReadInfo) (res : Result) (e : TagEntry) (s : State) : (s.retire t r res e).timing = s.timing := by
  simp [State.retire]
@[simp] theorem State.retire_sent (t : TagNo) (r : ReadInfo) (res : Result) (e : TagEntry) (s : State) : (s.retire t r res e).sent = s.sent := by
  simp [State.retire]
@[simp] theorem State.retire_pending (t : TagNo) (r : ReadInfo) (res : Result) (e : TagEntry) (s : State) : (s.retire t r res e).pending = s.pending := by
  simp [State.retire]

@[simp] theorem State.probeHead_grants (p : PortNo) (a : Access) (s : State) : (s.probeHead p a).grants = s.grants := by
  unfold State.probeHead
  split <;> simp
@[simp] theorem State.probeHead_expired (p : PortNo) (a : Access) (s : State) : (s.probeHead p a).expired = s.expired := by
  unfold State.probeHead
  split <;> simp
@[simp] theorem State.probeHead_lrst (p : PortNo) (a : Access) (s : State) : (s.probeHead p a).lrst = s.lrst := by
  unfold State.probeHead
  split <;> simp
@[simp] theorem State.probeHead_tags (p : PortNo) (a : Access) (s : State) : (s.probeHead p a).tags = s.tags := by
  unfold State.probeHead
  split <;> simp
@[simp] theorem State.probeHead_tagLast (p : PortNo) (a : Access) (s : State) : (s.probeHead p a).tagLast = s.tagLast := by
  unfold State.probeHead
  split <;> simp
@[simp] theorem State.probeHead_queue (p : PortNo) (a : Access) (s : State) : (s.probeHead p a).queue = s.queue := by
  unfold State.probeHead
  split <;> simp
@[simp] theorem State.probeHead_writeLast (p : PortNo) (a : Access) (s : State) : (s.probeHead p a).writeLast = s.writeLast := by
  unfold State.probeHead
  split <;> simp
@[simp] theorem State.probeHead_slots (p : PortNo) (a : Access) (s : State) : (s.probeHead p a).slots = s.slots := by
  unfold State.probeHead
  split <;> simp
@[simp] theorem State.probeHead_order (p : PortNo) (a : Access) (s : State) : (s.probeHead p a).order = s.order := by
  unfold State.probeHead
  split <;> simp
@[simp] theorem State.probeHead_timing (p : PortNo) (a : Access) (s : State) : (s.probeHead p a).timing = s.timing := by
  unfold State.probeHead
  split <;> simp
@[simp] theorem State.probeHead_link (p : PortNo) (a : Access) (s : State) : (s.probeHead p a).link = s.link := by
  unfold State.probeHead
  split <;> simp
@[simp] theorem State.probeHead_sent (p : PortNo) (a : Access) (s : State) : (s.probeHead p a).sent = s.sent := by
  unfold State.probeHead
  split <;> simp
@[simp] theorem State.probeHead_pending (p : PortNo) (a : Access) (s : State) : (s.probeHead p a).pending = s.pending := by
  unfold State.probeHead
  split <;> simp

@[simp] theorem State.issueRead_expired (p : PortNo) (t : TagNo) (len : Nat) (l : Label) (i : GrantIdx) (g : Grant) (n : GenNo) (a : HostAddr) (s : State) : (s.issueRead p t len l i g n a).expired = s.expired := by
  simp [State.issueRead]
@[simp] theorem State.issueRead_lrst (p : PortNo) (t : TagNo) (len : Nat) (l : Label) (i : GrantIdx) (g : Grant) (n : GenNo) (a : HostAddr) (s : State) : (s.issueRead p t len l i g n a).lrst = s.lrst := by
  simp [State.issueRead]
@[simp] theorem State.issueRead_tagLast (p : PortNo) (t : TagNo) (len : Nat) (l : Label) (i : GrantIdx) (g : Grant) (n : GenNo) (a : HostAddr) (s : State) : (s.issueRead p t len l i g n a).tagLast = s.tagLast := by
  simp [State.issueRead]
@[simp] theorem State.issueRead_queue (p : PortNo) (t : TagNo) (len : Nat) (l : Label) (i : GrantIdx) (g : Grant) (n : GenNo) (a : HostAddr) (s : State) : (s.issueRead p t len l i g n a).queue = s.queue := by
  simp [State.issueRead]
@[simp] theorem State.issueRead_writeLast (p : PortNo) (t : TagNo) (len : Nat) (l : Label) (i : GrantIdx) (g : Grant) (n : GenNo) (a : HostAddr) (s : State) : (s.issueRead p t len l i g n a).writeLast = s.writeLast := by
  simp [State.issueRead]
@[simp] theorem State.issueRead_slots (p : PortNo) (t : TagNo) (len : Nat) (l : Label) (i : GrantIdx) (g : Grant) (n : GenNo) (a : HostAddr) (s : State) : (s.issueRead p t len l i g n a).slots = s.slots := by
  simp [State.issueRead]
@[simp] theorem State.issueRead_order (p : PortNo) (t : TagNo) (len : Nat) (l : Label) (i : GrantIdx) (g : Grant) (n : GenNo) (a : HostAddr) (s : State) : (s.issueRead p t len l i g n a).order = s.order := by
  simp [State.issueRead]
@[simp] theorem State.issueRead_timing (p : PortNo) (t : TagNo) (len : Nat) (l : Label) (i : GrantIdx) (g : Grant) (n : GenNo) (a : HostAddr) (s : State) : (s.issueRead p t len l i g n a).timing = s.timing := by
  simp [State.issueRead]
@[simp] theorem State.issueRead_notice (p : PortNo) (t : TagNo) (len : Nat) (l : Label) (i : GrantIdx) (g : Grant) (n : GenNo) (a : HostAddr) (s : State) : (s.issueRead p t len l i g n a).notice = s.notice := by
  simp [State.issueRead]
@[simp] theorem State.issueRead_sent (p : PortNo) (t : TagNo) (len : Nat) (l : Label) (i : GrantIdx) (g : Grant) (n : GenNo) (a : HostAddr) (s : State) : (s.issueRead p t len l i g n a).sent = s.sent := by
  simp [State.issueRead]
@[simp] theorem State.issueRead_pending (p : PortNo) (t : TagNo) (len : Nat) (l : Label) (i : GrantIdx) (g : Grant) (n : GenNo) (a : HostAddr) (s : State) : (s.issueRead p t len l i g n a).pending = s.pending := by
  simp [State.issueRead]

@[simp] theorem State.grantRead_expired (p : PortNo) (t : TagNo) (a : LocalAddr) (len : Nat) (l : Label) (s : State) : (s.grantRead p t a len l).expired = s.expired := by
  unfold State.grantRead
  (repeat' split) <;> simp
@[simp] theorem State.grantRead_lrst (p : PortNo) (t : TagNo) (a : LocalAddr) (len : Nat) (l : Label) (s : State) : (s.grantRead p t a len l).lrst = s.lrst := by
  unfold State.grantRead
  (repeat' split) <;> simp
@[simp] theorem State.grantRead_tagLast (p : PortNo) (t : TagNo) (a : LocalAddr) (len : Nat) (l : Label) (s : State) : (s.grantRead p t a len l).tagLast = s.tagLast := by
  unfold State.grantRead
  (repeat' split) <;> simp
@[simp] theorem State.grantRead_queue (p : PortNo) (t : TagNo) (a : LocalAddr) (len : Nat) (l : Label) (s : State) : (s.grantRead p t a len l).queue = s.queue := by
  unfold State.grantRead
  (repeat' split) <;> simp
@[simp] theorem State.grantRead_writeLast (p : PortNo) (t : TagNo) (a : LocalAddr) (len : Nat) (l : Label) (s : State) : (s.grantRead p t a len l).writeLast = s.writeLast := by
  unfold State.grantRead
  (repeat' split) <;> simp
@[simp] theorem State.grantRead_slots (p : PortNo) (t : TagNo) (a : LocalAddr) (len : Nat) (l : Label) (s : State) : (s.grantRead p t a len l).slots = s.slots := by
  unfold State.grantRead
  (repeat' split) <;> simp
@[simp] theorem State.grantRead_order (p : PortNo) (t : TagNo) (a : LocalAddr) (len : Nat) (l : Label) (s : State) : (s.grantRead p t a len l).order = s.order := by
  unfold State.grantRead
  (repeat' split) <;> simp
@[simp] theorem State.grantRead_timing (p : PortNo) (t : TagNo) (a : LocalAddr) (len : Nat) (l : Label) (s : State) : (s.grantRead p t a len l).timing = s.timing := by
  unfold State.grantRead
  (repeat' split) <;> simp
@[simp] theorem State.grantRead_sent (p : PortNo) (t : TagNo) (a : LocalAddr) (len : Nat) (l : Label) (s : State) : (s.grantRead p t a len l).sent = s.sent := by
  unfold State.grantRead
  (repeat' split) <;> simp
@[simp] theorem State.grantRead_pending (p : PortNo) (t : TagNo) (a : LocalAddr) (len : Nat) (l : Label) (s : State) : (s.grantRead p t a len l).pending = s.pending := by
  unfold State.grantRead
  (repeat' split) <;> simp

@[simp] theorem State.acceptWrite_expired (p : PortNo) (len : Nat) (d : List Byte) (i : GrantIdx) (g : Grant) (n : GenNo) (a : HostAddr) (s : State) : (s.acceptWrite p len d i g n a).expired = s.expired := by
  simp [State.acceptWrite]
@[simp] theorem State.acceptWrite_lrst (p : PortNo) (len : Nat) (d : List Byte) (i : GrantIdx) (g : Grant) (n : GenNo) (a : HostAddr) (s : State) : (s.acceptWrite p len d i g n a).lrst = s.lrst := by
  simp [State.acceptWrite]
@[simp] theorem State.acceptWrite_tags (p : PortNo) (len : Nat) (d : List Byte) (i : GrantIdx) (g : Grant) (n : GenNo) (a : HostAddr) (s : State) : (s.acceptWrite p len d i g n a).tags = s.tags := by
  simp [State.acceptWrite]
@[simp] theorem State.acceptWrite_tagLast (p : PortNo) (len : Nat) (d : List Byte) (i : GrantIdx) (g : Grant) (n : GenNo) (a : HostAddr) (s : State) : (s.acceptWrite p len d i g n a).tagLast = s.tagLast := by
  simp [State.acceptWrite]
@[simp] theorem State.acceptWrite_writeLast (p : PortNo) (len : Nat) (d : List Byte) (i : GrantIdx) (g : Grant) (n : GenNo) (a : HostAddr) (s : State) : (s.acceptWrite p len d i g n a).writeLast = s.writeLast := by
  simp [State.acceptWrite]
@[simp] theorem State.acceptWrite_slots (p : PortNo) (len : Nat) (d : List Byte) (i : GrantIdx) (g : Grant) (n : GenNo) (a : HostAddr) (s : State) : (s.acceptWrite p len d i g n a).slots = s.slots := by
  simp [State.acceptWrite]
@[simp] theorem State.acceptWrite_order (p : PortNo) (len : Nat) (d : List Byte) (i : GrantIdx) (g : Grant) (n : GenNo) (a : HostAddr) (s : State) : (s.acceptWrite p len d i g n a).order = s.order := by
  simp [State.acceptWrite]
@[simp] theorem State.acceptWrite_timing (p : PortNo) (len : Nat) (d : List Byte) (i : GrantIdx) (g : Grant) (n : GenNo) (a : HostAddr) (s : State) : (s.acceptWrite p len d i g n a).timing = s.timing := by
  simp [State.acceptWrite]
@[simp] theorem State.acceptWrite_notice (p : PortNo) (len : Nat) (d : List Byte) (i : GrantIdx) (g : Grant) (n : GenNo) (a : HostAddr) (s : State) : (s.acceptWrite p len d i g n a).notice = s.notice := by
  simp [State.acceptWrite]
@[simp] theorem State.acceptWrite_link (p : PortNo) (len : Nat) (d : List Byte) (i : GrantIdx) (g : Grant) (n : GenNo) (a : HostAddr) (s : State) : (s.acceptWrite p len d i g n a).link = s.link := by
  simp [State.acceptWrite]
@[simp] theorem State.acceptWrite_sent (p : PortNo) (len : Nat) (d : List Byte) (i : GrantIdx) (g : Grant) (n : GenNo) (a : HostAddr) (s : State) : (s.acceptWrite p len d i g n a).sent = s.sent := by
  simp [State.acceptWrite]
@[simp] theorem State.acceptWrite_pending (p : PortNo) (len : Nat) (d : List Byte) (i : GrantIdx) (g : Grant) (n : GenNo) (a : HostAddr) (s : State) : (s.acceptWrite p len d i g n a).pending = s.pending := by
  simp [State.acceptWrite]

@[simp] theorem State.grantWrite_expired (p : PortNo) (a : LocalAddr) (len : Nat) (d : List Byte) (s : State) : (s.grantWrite p a len d).expired = s.expired := by
  unfold State.grantWrite
  (repeat' split) <;> simp
@[simp] theorem State.grantWrite_lrst (p : PortNo) (a : LocalAddr) (len : Nat) (d : List Byte) (s : State) : (s.grantWrite p a len d).lrst = s.lrst := by
  unfold State.grantWrite
  (repeat' split) <;> simp
@[simp] theorem State.grantWrite_tags (p : PortNo) (a : LocalAddr) (len : Nat) (d : List Byte) (s : State) : (s.grantWrite p a len d).tags = s.tags := by
  unfold State.grantWrite
  (repeat' split) <;> simp
@[simp] theorem State.grantWrite_tagLast (p : PortNo) (a : LocalAddr) (len : Nat) (d : List Byte) (s : State) : (s.grantWrite p a len d).tagLast = s.tagLast := by
  unfold State.grantWrite
  (repeat' split) <;> simp
@[simp] theorem State.grantWrite_writeLast (p : PortNo) (a : LocalAddr) (len : Nat) (d : List Byte) (s : State) : (s.grantWrite p a len d).writeLast = s.writeLast := by
  unfold State.grantWrite
  (repeat' split) <;> simp
@[simp] theorem State.grantWrite_slots (p : PortNo) (a : LocalAddr) (len : Nat) (d : List Byte) (s : State) : (s.grantWrite p a len d).slots = s.slots := by
  unfold State.grantWrite
  (repeat' split) <;> simp
@[simp] theorem State.grantWrite_order (p : PortNo) (a : LocalAddr) (len : Nat) (d : List Byte) (s : State) : (s.grantWrite p a len d).order = s.order := by
  unfold State.grantWrite
  (repeat' split) <;> simp
@[simp] theorem State.grantWrite_timing (p : PortNo) (a : LocalAddr) (len : Nat) (d : List Byte) (s : State) : (s.grantWrite p a len d).timing = s.timing := by
  unfold State.grantWrite
  (repeat' split) <;> simp
@[simp] theorem State.grantWrite_link (p : PortNo) (a : LocalAddr) (len : Nat) (d : List Byte) (s : State) : (s.grantWrite p a len d).link = s.link := by
  unfold State.grantWrite
  (repeat' split) <;> simp
@[simp] theorem State.grantWrite_sent (p : PortNo) (a : LocalAddr) (len : Nat) (d : List Byte) (s : State) : (s.grantWrite p a len d).sent = s.sent := by
  unfold State.grantWrite
  (repeat' split) <;> simp
@[simp] theorem State.grantWrite_pending (p : PortNo) (a : LocalAddr) (len : Nat) (d : List Byte) (s : State) : (s.grantWrite p a len d).pending = s.pending := by
  unfold State.grantWrite
  (repeat' split) <;> simp

@[simp] theorem State.takeBytes_grants (t : TagNo) (r : ReadInfo) (i u : Nat) (d : List Byte) (s : State) : (s.takeBytes t r i u d).grants = s.grants := by
  unfold State.takeBytes
  simp only []
  split <;> simp
@[simp] theorem State.takeBytes_expired (t : TagNo) (r : ReadInfo) (i u : Nat) (d : List Byte) (s : State) : (s.takeBytes t r i u d).expired = s.expired := by
  unfold State.takeBytes
  simp only []
  split <;> simp
@[simp] theorem State.takeBytes_ports (t : TagNo) (r : ReadInfo) (i u : Nat) (d : List Byte) (s : State) : (s.takeBytes t r i u d).ports = s.ports := by
  unfold State.takeBytes
  simp only []
  split <;> simp
@[simp] theorem State.takeBytes_lrst (t : TagNo) (r : ReadInfo) (i u : Nat) (d : List Byte) (s : State) : (s.takeBytes t r i u d).lrst = s.lrst := by
  unfold State.takeBytes
  simp only []
  split <;> simp
@[simp] theorem State.takeBytes_tagLast (t : TagNo) (r : ReadInfo) (i u : Nat) (d : List Byte) (s : State) : (s.takeBytes t r i u d).tagLast = s.tagLast := by
  unfold State.takeBytes
  simp only []
  split <;> simp
@[simp] theorem State.takeBytes_queue (t : TagNo) (r : ReadInfo) (i u : Nat) (d : List Byte) (s : State) : (s.takeBytes t r i u d).queue = s.queue := by
  unfold State.takeBytes
  simp only []
  split <;> simp
@[simp] theorem State.takeBytes_writeLast (t : TagNo) (r : ReadInfo) (i u : Nat) (d : List Byte) (s : State) : (s.takeBytes t r i u d).writeLast = s.writeLast := by
  unfold State.takeBytes
  simp only []
  split <;> simp
@[simp] theorem State.takeBytes_slots (t : TagNo) (r : ReadInfo) (i u : Nat) (d : List Byte) (s : State) : (s.takeBytes t r i u d).slots = s.slots := by
  unfold State.takeBytes
  simp only []
  split <;> simp
@[simp] theorem State.takeBytes_order (t : TagNo) (r : ReadInfo) (i u : Nat) (d : List Byte) (s : State) : (s.takeBytes t r i u d).order = s.order := by
  unfold State.takeBytes
  simp only []
  split <;> simp
@[simp] theorem State.takeBytes_timing (t : TagNo) (r : ReadInfo) (i u : Nat) (d : List Byte) (s : State) : (s.takeBytes t r i u d).timing = s.timing := by
  unfold State.takeBytes
  simp only []
  split <;> simp
@[simp] theorem State.takeBytes_notice (t : TagNo) (r : ReadInfo) (i u : Nat) (d : List Byte) (s : State) : (s.takeBytes t r i u d).notice = s.notice := by
  unfold State.takeBytes
  simp only []
  split <;> simp
@[simp] theorem State.takeBytes_link (t : TagNo) (r : ReadInfo) (i u : Nat) (d : List Byte) (s : State) : (s.takeBytes t r i u d).link = s.link := by
  unfold State.takeBytes
  simp only []
  split <;> simp
@[simp] theorem State.takeBytes_sent (t : TagNo) (r : ReadInfo) (i u : Nat) (d : List Byte) (s : State) : (s.takeBytes t r i u d).sent = s.sent := by
  unfold State.takeBytes
  simp only []
  split <;> simp
@[simp] theorem State.takeBytes_pending (t : TagNo) (r : ReadInfo) (i u : Nat) (d : List Byte) (s : State) : (s.takeBytes t r i u d).pending = s.pending := by
  unfold State.takeBytes
  simp only []
  split <;> simp

@[simp] theorem State.partOnWaiting_expired (t : TagNo) (r : ReadInfo) (i u : Nat) (d : Part) (s : State) : (s.partOnWaiting t r i u d).expired = s.expired := by
  unfold State.partOnWaiting
  simp only []
  (repeat' split) <;> simp
@[simp] theorem State.partOnWaiting_lrst (t : TagNo) (r : ReadInfo) (i u : Nat) (d : Part) (s : State) : (s.partOnWaiting t r i u d).lrst = s.lrst := by
  unfold State.partOnWaiting
  simp only []
  (repeat' split) <;> simp
@[simp] theorem State.partOnWaiting_tagLast (t : TagNo) (r : ReadInfo) (i u : Nat) (d : Part) (s : State) : (s.partOnWaiting t r i u d).tagLast = s.tagLast := by
  unfold State.partOnWaiting
  simp only []
  (repeat' split) <;> simp
@[simp] theorem State.partOnWaiting_queue (t : TagNo) (r : ReadInfo) (i u : Nat) (d : Part) (s : State) : (s.partOnWaiting t r i u d).queue = s.queue := by
  unfold State.partOnWaiting
  simp only []
  (repeat' split) <;> simp
@[simp] theorem State.partOnWaiting_writeLast (t : TagNo) (r : ReadInfo) (i u : Nat) (d : Part) (s : State) : (s.partOnWaiting t r i u d).writeLast = s.writeLast := by
  unfold State.partOnWaiting
  simp only []
  (repeat' split) <;> simp
@[simp] theorem State.partOnWaiting_order (t : TagNo) (r : ReadInfo) (i u : Nat) (d : Part) (s : State) : (s.partOnWaiting t r i u d).order = s.order := by
  unfold State.partOnWaiting
  simp only []
  (repeat' split) <;> simp
@[simp] theorem State.partOnWaiting_timing (t : TagNo) (r : ReadInfo) (i u : Nat) (d : Part) (s : State) : (s.partOnWaiting t r i u d).timing = s.timing := by
  unfold State.partOnWaiting
  simp only []
  (repeat' split) <;> simp
@[simp] theorem State.partOnWaiting_sent (t : TagNo) (r : ReadInfo) (i u : Nat) (d : Part) (s : State) : (s.partOnWaiting t r i u d).sent = s.sent := by
  unfold State.partOnWaiting
  simp only []
  (repeat' split) <;> simp
@[simp] theorem State.partOnWaiting_pending (t : TagNo) (r : ReadInfo) (i u : Nat) (d : Part) (s : State) : (s.partOnWaiting t r i u d).pending = s.pending := by
  unfold State.partOnWaiting
  simp only []
  (repeat' split) <;> simp

@[simp] theorem State.takePart_expired (t : TagNo) (d : Part) (s : State) : (s.takePart t d).expired = s.expired := by
  unfold State.takePart
  (repeat' split) <;> simp
@[simp] theorem State.takePart_lrst (t : TagNo) (d : Part) (s : State) : (s.takePart t d).lrst = s.lrst := by
  unfold State.takePart
  (repeat' split) <;> simp
@[simp] theorem State.takePart_tagLast (t : TagNo) (d : Part) (s : State) : (s.takePart t d).tagLast = s.tagLast := by
  unfold State.takePart
  (repeat' split) <;> simp
@[simp] theorem State.takePart_queue (t : TagNo) (d : Part) (s : State) : (s.takePart t d).queue = s.queue := by
  unfold State.takePart
  (repeat' split) <;> simp
@[simp] theorem State.takePart_writeLast (t : TagNo) (d : Part) (s : State) : (s.takePart t d).writeLast = s.writeLast := by
  unfold State.takePart
  (repeat' split) <;> simp
@[simp] theorem State.takePart_order (t : TagNo) (d : Part) (s : State) : (s.takePart t d).order = s.order := by
  unfold State.takePart
  (repeat' split) <;> simp
@[simp] theorem State.takePart_timing (t : TagNo) (d : Part) (s : State) : (s.takePart t d).timing = s.timing := by
  unfold State.takePart
  (repeat' split) <;> simp
@[simp] theorem State.takePart_sent (t : TagNo) (d : Part) (s : State) : (s.takePart t d).sent = s.sent := by
  unfold State.takePart
  (repeat' split) <;> simp
@[simp] theorem State.takePart_pending (t : TagNo) (d : Part) (s : State) : (s.takePart t d).pending = s.pending := by
  unfold State.takePart
  (repeat' split) <;> simp

@[simp] theorem State.sendFront_grants (r : Request) (rest : List Request) (s : State) : (s.sendFront r rest).grants = s.grants := rfl
@[simp] theorem State.sendFront_expired (r : Request) (rest : List Request) (s : State) : (s.sendFront r rest).expired = s.expired := rfl
@[simp] theorem State.sendFront_ports (r : Request) (rest : List Request) (s : State) : (s.sendFront r rest).ports = s.ports := rfl
@[simp] theorem State.sendFront_lrst (r : Request) (rest : List Request) (s : State) : (s.sendFront r rest).lrst = s.lrst := rfl
@[simp] theorem State.sendFront_tags (r : Request) (rest : List Request) (s : State) : (s.sendFront r rest).tags = s.tags := rfl
@[simp] theorem State.sendFront_tagLast (r : Request) (rest : List Request) (s : State) : (s.sendFront r rest).tagLast = s.tagLast := rfl
@[simp] theorem State.sendFront_queue (r : Request) (rest : List Request) (s : State) : (s.sendFront r rest).queue = s.queue := rfl
@[simp] theorem State.sendFront_writeLast (r : Request) (rest : List Request) (s : State) : (s.sendFront r rest).writeLast = s.writeLast := rfl
@[simp] theorem State.sendFront_slots (r : Request) (rest : List Request) (s : State) : (s.sendFront r rest).slots = s.slots := rfl
@[simp] theorem State.sendFront_order (r : Request) (rest : List Request) (s : State) : (s.sendFront r rest).order = s.order := rfl
@[simp] theorem State.sendFront_timing (r : Request) (rest : List Request) (s : State) : (s.sendFront r rest).timing = s.timing := rfl
@[simp] theorem State.sendFront_notice (r : Request) (rest : List Request) (s : State) : (s.sendFront r rest).notice = s.notice := rfl
@[simp] theorem State.sendFront_answers (r : Request) (rest : List Request) (s : State) : (s.sendFront r rest).answers = s.answers := rfl
@[simp] theorem State.sendFront_pending (r : Request) (rest : List Request) (s : State) : (s.sendFront r rest).pending = s.pending := rfl

@[simp] theorem State.submit_grants (k : SlotNo) (op : BitVec 16) (s : State) : (s.submit k op).grants = s.grants := by
  simp [State.submit]
@[simp] theorem State.submit_expired (k : SlotNo) (op : BitVec 16) (s : State) : (s.submit k op).expired = s.expired := by
  simp [State.submit]
@[simp] theorem State.submit_ports (k : SlotNo) (op : BitVec 16) (s : State) : (s.submit k op).ports = s.ports := by
  simp [State.submit]
@[simp] theorem State.submit_lrst (k : SlotNo) (op : BitVec 16) (s : State) : (s.submit k op).lrst = s.lrst := by
  simp [State.submit]
@[simp] theorem State.submit_tags (k : SlotNo) (op : BitVec 16) (s : State) : (s.submit k op).tags = s.tags := by
  simp [State.submit]
@[simp] theorem State.submit_tagLast (k : SlotNo) (op : BitVec 16) (s : State) : (s.submit k op).tagLast = s.tagLast := by
  simp [State.submit]
@[simp] theorem State.submit_queue (k : SlotNo) (op : BitVec 16) (s : State) : (s.submit k op).queue = s.queue := by
  simp [State.submit]
@[simp] theorem State.submit_writeLast (k : SlotNo) (op : BitVec 16) (s : State) : (s.submit k op).writeLast = s.writeLast := by
  simp [State.submit]
@[simp] theorem State.submit_timing (k : SlotNo) (op : BitVec 16) (s : State) : (s.submit k op).timing = s.timing := by
  simp [State.submit]
@[simp] theorem State.submit_notice (k : SlotNo) (op : BitVec 16) (s : State) : (s.submit k op).notice = s.notice := by
  simp [State.submit]
@[simp] theorem State.submit_link (k : SlotNo) (op : BitVec 16) (s : State) : (s.submit k op).link = s.link := by
  simp [State.submit]
@[simp] theorem State.submit_answers (k : SlotNo) (op : BitVec 16) (s : State) : (s.submit k op).answers = s.answers := by
  simp [State.submit]
@[simp] theorem State.submit_sent (k : SlotNo) (op : BitVec 16) (s : State) : (s.submit k op).sent = s.sent := by
  simp [State.submit]
@[simp] theorem State.submit_pending (k : SlotNo) (op : BitVec 16) (s : State) : (s.submit k op).pending = s.pending := by
  simp [State.submit]

@[simp] theorem State.writeSubmit_grants (k : SlotNo) (v : Word) (s : State) : (s.writeSubmit k v).grants = s.grants := by
  unfold State.writeSubmit
  (repeat' split) <;> simp
@[simp] theorem State.writeSubmit_expired (k : SlotNo) (v : Word) (s : State) : (s.writeSubmit k v).expired = s.expired := by
  unfold State.writeSubmit
  (repeat' split) <;> simp
@[simp] theorem State.writeSubmit_ports (k : SlotNo) (v : Word) (s : State) : (s.writeSubmit k v).ports = s.ports := by
  unfold State.writeSubmit
  (repeat' split) <;> simp
@[simp] theorem State.writeSubmit_lrst (k : SlotNo) (v : Word) (s : State) : (s.writeSubmit k v).lrst = s.lrst := by
  unfold State.writeSubmit
  (repeat' split) <;> simp
@[simp] theorem State.writeSubmit_tags (k : SlotNo) (v : Word) (s : State) : (s.writeSubmit k v).tags = s.tags := by
  unfold State.writeSubmit
  (repeat' split) <;> simp
@[simp] theorem State.writeSubmit_tagLast (k : SlotNo) (v : Word) (s : State) : (s.writeSubmit k v).tagLast = s.tagLast := by
  unfold State.writeSubmit
  (repeat' split) <;> simp
@[simp] theorem State.writeSubmit_queue (k : SlotNo) (v : Word) (s : State) : (s.writeSubmit k v).queue = s.queue := by
  unfold State.writeSubmit
  (repeat' split) <;> simp
@[simp] theorem State.writeSubmit_writeLast (k : SlotNo) (v : Word) (s : State) : (s.writeSubmit k v).writeLast = s.writeLast := by
  unfold State.writeSubmit
  (repeat' split) <;> simp
@[simp] theorem State.writeSubmit_timing (k : SlotNo) (v : Word) (s : State) : (s.writeSubmit k v).timing = s.timing := by
  unfold State.writeSubmit
  (repeat' split) <;> simp
@[simp] theorem State.writeSubmit_link (k : SlotNo) (v : Word) (s : State) : (s.writeSubmit k v).link = s.link := by
  unfold State.writeSubmit
  (repeat' split) <;> simp
@[simp] theorem State.writeSubmit_answers (k : SlotNo) (v : Word) (s : State) : (s.writeSubmit k v).answers = s.answers := by
  unfold State.writeSubmit
  (repeat' split) <;> simp
@[simp] theorem State.writeSubmit_sent (k : SlotNo) (v : Word) (s : State) : (s.writeSubmit k v).sent = s.sent := by
  unfold State.writeSubmit
  (repeat' split) <;> simp
@[simp] theorem State.writeSubmit_pending (k : SlotNo) (v : Word) (s : State) : (s.writeSubmit k v).pending = s.pending := by
  unfold State.writeSubmit
  (repeat' split) <;> simp

@[simp] theorem State.writeArg_grants (k : SlotNo) (n : Nat) (v : Word) (s : State) : (s.writeArg k n v).grants = s.grants := by
  unfold State.writeArg
  split <;> simp
@[simp] theorem State.writeArg_expired (k : SlotNo) (n : Nat) (v : Word) (s : State) : (s.writeArg k n v).expired = s.expired := by
  unfold State.writeArg
  split <;> simp
@[simp] theorem State.writeArg_ports (k : SlotNo) (n : Nat) (v : Word) (s : State) : (s.writeArg k n v).ports = s.ports := by
  unfold State.writeArg
  split <;> simp
@[simp] theorem State.writeArg_lrst (k : SlotNo) (n : Nat) (v : Word) (s : State) : (s.writeArg k n v).lrst = s.lrst := by
  unfold State.writeArg
  split <;> simp
@[simp] theorem State.writeArg_tags (k : SlotNo) (n : Nat) (v : Word) (s : State) : (s.writeArg k n v).tags = s.tags := by
  unfold State.writeArg
  split <;> simp
@[simp] theorem State.writeArg_tagLast (k : SlotNo) (n : Nat) (v : Word) (s : State) : (s.writeArg k n v).tagLast = s.tagLast := by
  unfold State.writeArg
  split <;> simp
@[simp] theorem State.writeArg_queue (k : SlotNo) (n : Nat) (v : Word) (s : State) : (s.writeArg k n v).queue = s.queue := by
  unfold State.writeArg
  split <;> simp
@[simp] theorem State.writeArg_writeLast (k : SlotNo) (n : Nat) (v : Word) (s : State) : (s.writeArg k n v).writeLast = s.writeLast := by
  unfold State.writeArg
  split <;> simp
@[simp] theorem State.writeArg_order (k : SlotNo) (n : Nat) (v : Word) (s : State) : (s.writeArg k n v).order = s.order := by
  unfold State.writeArg
  split <;> simp
@[simp] theorem State.writeArg_timing (k : SlotNo) (n : Nat) (v : Word) (s : State) : (s.writeArg k n v).timing = s.timing := by
  unfold State.writeArg
  split <;> simp
@[simp] theorem State.writeArg_link (k : SlotNo) (n : Nat) (v : Word) (s : State) : (s.writeArg k n v).link = s.link := by
  unfold State.writeArg
  split <;> simp
@[simp] theorem State.writeArg_answers (k : SlotNo) (n : Nat) (v : Word) (s : State) : (s.writeArg k n v).answers = s.answers := by
  unfold State.writeArg
  split <;> simp
@[simp] theorem State.writeArg_sent (k : SlotNo) (n : Nat) (v : Word) (s : State) : (s.writeArg k n v).sent = s.sent := by
  unfold State.writeArg
  split <;> simp
@[simp] theorem State.writeArg_pending (k : SlotNo) (n : Nat) (v : Word) (s : State) : (s.writeArg k n v).pending = s.pending := by
  unfold State.writeArg
  split <;> simp

@[simp] theorem State.writeAcknowledge_grants (v : Word) (s : State) : (s.writeAcknowledge v).grants = s.grants := rfl
@[simp] theorem State.writeAcknowledge_expired (v : Word) (s : State) : (s.writeAcknowledge v).expired = s.expired := rfl
@[simp] theorem State.writeAcknowledge_ports (v : Word) (s : State) : (s.writeAcknowledge v).ports = s.ports := rfl
@[simp] theorem State.writeAcknowledge_lrst (v : Word) (s : State) : (s.writeAcknowledge v).lrst = s.lrst := rfl
@[simp] theorem State.writeAcknowledge_tags (v : Word) (s : State) : (s.writeAcknowledge v).tags = s.tags := rfl
@[simp] theorem State.writeAcknowledge_tagLast (v : Word) (s : State) : (s.writeAcknowledge v).tagLast = s.tagLast := rfl
@[simp] theorem State.writeAcknowledge_queue (v : Word) (s : State) : (s.writeAcknowledge v).queue = s.queue := rfl
@[simp] theorem State.writeAcknowledge_writeLast (v : Word) (s : State) : (s.writeAcknowledge v).writeLast = s.writeLast := rfl
@[simp] theorem State.writeAcknowledge_slots (v : Word) (s : State) : (s.writeAcknowledge v).slots = s.slots := rfl
@[simp] theorem State.writeAcknowledge_order (v : Word) (s : State) : (s.writeAcknowledge v).order = s.order := rfl
@[simp] theorem State.writeAcknowledge_timing (v : Word) (s : State) : (s.writeAcknowledge v).timing = s.timing := rfl
@[simp] theorem State.writeAcknowledge_link (v : Word) (s : State) : (s.writeAcknowledge v).link = s.link := rfl
@[simp] theorem State.writeAcknowledge_answers (v : Word) (s : State) : (s.writeAcknowledge v).answers = s.answers := rfl
@[simp] theorem State.writeAcknowledge_sent (v : Word) (s : State) : (s.writeAcknowledge v).sent = s.sent := rfl
@[simp] theorem State.writeAcknowledge_pending (v : Word) (s : State) : (s.writeAcknowledge v).pending = s.pending := rfl

@[simp] theorem State.setEnable_grants (e : CauseSet) (s : State) : (s.setEnable e).grants = s.grants := rfl
@[simp] theorem State.setEnable_expired (e : CauseSet) (s : State) : (s.setEnable e).expired = s.expired := rfl
@[simp] theorem State.setEnable_ports (e : CauseSet) (s : State) : (s.setEnable e).ports = s.ports := rfl
@[simp] theorem State.setEnable_lrst (e : CauseSet) (s : State) : (s.setEnable e).lrst = s.lrst := rfl
@[simp] theorem State.setEnable_tags (e : CauseSet) (s : State) : (s.setEnable e).tags = s.tags := rfl
@[simp] theorem State.setEnable_tagLast (e : CauseSet) (s : State) : (s.setEnable e).tagLast = s.tagLast := rfl
@[simp] theorem State.setEnable_queue (e : CauseSet) (s : State) : (s.setEnable e).queue = s.queue := rfl
@[simp] theorem State.setEnable_writeLast (e : CauseSet) (s : State) : (s.setEnable e).writeLast = s.writeLast := rfl
@[simp] theorem State.setEnable_slots (e : CauseSet) (s : State) : (s.setEnable e).slots = s.slots := rfl
@[simp] theorem State.setEnable_order (e : CauseSet) (s : State) : (s.setEnable e).order = s.order := rfl
@[simp] theorem State.setEnable_timing (e : CauseSet) (s : State) : (s.setEnable e).timing = s.timing := rfl
@[simp] theorem State.setEnable_link (e : CauseSet) (s : State) : (s.setEnable e).link = s.link := rfl
@[simp] theorem State.setEnable_answers (e : CauseSet) (s : State) : (s.setEnable e).answers = s.answers := rfl
@[simp] theorem State.setEnable_sent (e : CauseSet) (s : State) : (s.setEnable e).sent = s.sent := rfl
@[simp] theorem State.setEnable_pending (e : CauseSet) (s : State) : (s.setEnable e).pending = s.pending := rfl

@[simp] theorem State.writeMasterEnable_grants (v : Word) (s : State) : (s.writeMasterEnable v).grants = s.grants := by
  unfold State.writeMasterEnable
  simp only []
  split <;> simp
@[simp] theorem State.writeMasterEnable_expired (v : Word) (s : State) : (s.writeMasterEnable v).expired = s.expired := by
  unfold State.writeMasterEnable
  simp only []
  split <;> simp
@[simp] theorem State.writeMasterEnable_ports (v : Word) (s : State) : (s.writeMasterEnable v).ports = s.ports := by
  unfold State.writeMasterEnable
  simp only []
  split <;> simp
@[simp] theorem State.writeMasterEnable_lrst (v : Word) (s : State) : (s.writeMasterEnable v).lrst = s.lrst := by
  unfold State.writeMasterEnable
  simp only []
  split <;> simp
@[simp] theorem State.writeMasterEnable_tags (v : Word) (s : State) : (s.writeMasterEnable v).tags = s.tags := by
  unfold State.writeMasterEnable
  simp only []
  split <;> simp
@[simp] theorem State.writeMasterEnable_tagLast (v : Word) (s : State) : (s.writeMasterEnable v).tagLast = s.tagLast := by
  unfold State.writeMasterEnable
  simp only []
  split <;> simp
@[simp] theorem State.writeMasterEnable_queue (v : Word) (s : State) : (s.writeMasterEnable v).queue = s.queue := by
  unfold State.writeMasterEnable
  simp only []
  split <;> simp
@[simp] theorem State.writeMasterEnable_writeLast (v : Word) (s : State) : (s.writeMasterEnable v).writeLast = s.writeLast := by
  unfold State.writeMasterEnable
  simp only []
  split <;> simp
@[simp] theorem State.writeMasterEnable_slots (v : Word) (s : State) : (s.writeMasterEnable v).slots = s.slots := by
  unfold State.writeMasterEnable
  simp only []
  split <;> simp
@[simp] theorem State.writeMasterEnable_order (v : Word) (s : State) : (s.writeMasterEnable v).order = s.order := by
  unfold State.writeMasterEnable
  simp only []
  split <;> simp
@[simp] theorem State.writeMasterEnable_timing (v : Word) (s : State) : (s.writeMasterEnable v).timing = s.timing := by
  unfold State.writeMasterEnable
  simp only []
  split <;> simp
@[simp] theorem State.writeMasterEnable_answers (v : Word) (s : State) : (s.writeMasterEnable v).answers = s.answers := by
  unfold State.writeMasterEnable
  simp only []
  split <;> simp
@[simp] theorem State.writeMasterEnable_sent (v : Word) (s : State) : (s.writeMasterEnable v).sent = s.sent := by
  unfold State.writeMasterEnable
  simp only []
  split <;> simp
@[simp] theorem State.writeMasterEnable_pending (v : Word) (s : State) : (s.writeMasterEnable v).pending = s.pending := by
  unfold State.writeMasterEnable
  simp only []
  split <;> simp

@[simp] theorem State.writeExpired_grants (w : Fin 2) (v : Word) (s : State) : (s.writeExpired w v).grants = s.grants := rfl
@[simp] theorem State.writeExpired_ports (w : Fin 2) (v : Word) (s : State) : (s.writeExpired w v).ports = s.ports := rfl
@[simp] theorem State.writeExpired_lrst (w : Fin 2) (v : Word) (s : State) : (s.writeExpired w v).lrst = s.lrst := rfl
@[simp] theorem State.writeExpired_tags (w : Fin 2) (v : Word) (s : State) : (s.writeExpired w v).tags = s.tags := rfl
@[simp] theorem State.writeExpired_tagLast (w : Fin 2) (v : Word) (s : State) : (s.writeExpired w v).tagLast = s.tagLast := rfl
@[simp] theorem State.writeExpired_queue (w : Fin 2) (v : Word) (s : State) : (s.writeExpired w v).queue = s.queue := rfl
@[simp] theorem State.writeExpired_writeLast (w : Fin 2) (v : Word) (s : State) : (s.writeExpired w v).writeLast = s.writeLast := rfl
@[simp] theorem State.writeExpired_slots (w : Fin 2) (v : Word) (s : State) : (s.writeExpired w v).slots = s.slots := rfl
@[simp] theorem State.writeExpired_order (w : Fin 2) (v : Word) (s : State) : (s.writeExpired w v).order = s.order := rfl
@[simp] theorem State.writeExpired_timing (w : Fin 2) (v : Word) (s : State) : (s.writeExpired w v).timing = s.timing := rfl
@[simp] theorem State.writeExpired_notice (w : Fin 2) (v : Word) (s : State) : (s.writeExpired w v).notice = s.notice := rfl
@[simp] theorem State.writeExpired_link (w : Fin 2) (v : Word) (s : State) : (s.writeExpired w v).link = s.link := rfl
@[simp] theorem State.writeExpired_answers (w : Fin 2) (v : Word) (s : State) : (s.writeExpired w v).answers = s.answers := rfl
@[simp] theorem State.writeExpired_sent (w : Fin 2) (v : Word) (s : State) : (s.writeExpired w v).sent = s.sent := rfl
@[simp] theorem State.writeExpired_pending (w : Fin 2) (v : Word) (s : State) : (s.writeExpired w v).pending = s.pending := rfl

@[simp] theorem State.writeWord_grants (o : BitVec 14) (v : Word) (s : State) : (s.writeWord o v).grants = s.grants := by
  unfold State.writeWord
  simp only []
  (repeat' split) <;> simp
@[simp] theorem State.writeWord_ports (o : BitVec 14) (v : Word) (s : State) : (s.writeWord o v).ports = s.ports := by
  unfold State.writeWord
  simp only []
  (repeat' split) <;> simp
@[simp] theorem State.writeWord_lrst (o : BitVec 14) (v : Word) (s : State) : (s.writeWord o v).lrst = s.lrst := by
  unfold State.writeWord
  simp only []
  (repeat' split) <;> simp
@[simp] theorem State.writeWord_tags (o : BitVec 14) (v : Word) (s : State) : (s.writeWord o v).tags = s.tags := by
  unfold State.writeWord
  simp only []
  (repeat' split) <;> simp
@[simp] theorem State.writeWord_tagLast (o : BitVec 14) (v : Word) (s : State) : (s.writeWord o v).tagLast = s.tagLast := by
  unfold State.writeWord
  simp only []
  (repeat' split) <;> simp
@[simp] theorem State.writeWord_queue (o : BitVec 14) (v : Word) (s : State) : (s.writeWord o v).queue = s.queue := by
  unfold State.writeWord
  simp only []
  (repeat' split) <;> simp
@[simp] theorem State.writeWord_writeLast (o : BitVec 14) (v : Word) (s : State) : (s.writeWord o v).writeLast = s.writeLast := by
  unfold State.writeWord
  simp only []
  (repeat' split) <;> simp
@[simp] theorem State.writeWord_timing (o : BitVec 14) (v : Word) (s : State) : (s.writeWord o v).timing = s.timing := by
  unfold State.writeWord
  simp only []
  (repeat' split) <;> simp
@[simp] theorem State.writeWord_answers (o : BitVec 14) (v : Word) (s : State) : (s.writeWord o v).answers = s.answers := by
  unfold State.writeWord
  simp only []
  (repeat' split) <;> simp
@[simp] theorem State.writeWord_sent (o : BitVec 14) (v : Word) (s : State) : (s.writeWord o v).sent = s.sent := by
  unfold State.writeWord
  simp only []
  (repeat' split) <;> simp
@[simp] theorem State.writeWord_pending (o : BitVec 14) (v : Word) (s : State) : (s.writeWord o v).pending = s.pending := by
  unfold State.writeWord
  simp only []
  (repeat' split) <;> simp

@[simp] theorem State.remap_expired (k : SlotNo) (h : Handle) (g : Grant) (s : State) : (s.remap k h g).expired = s.expired := by
  unfold State.remap
  simp only []
  (repeat' split) <;> simp
@[simp] theorem State.remap_ports (k : SlotNo) (h : Handle) (g : Grant) (s : State) : (s.remap k h g).ports = s.ports := by
  unfold State.remap
  simp only []
  (repeat' split) <;> simp
@[simp] theorem State.remap_lrst (k : SlotNo) (h : Handle) (g : Grant) (s : State) : (s.remap k h g).lrst = s.lrst := by
  unfold State.remap
  simp only []
  (repeat' split) <;> simp
@[simp] theorem State.remap_tags (k : SlotNo) (h : Handle) (g : Grant) (s : State) : (s.remap k h g).tags = s.tags := by
  unfold State.remap
  simp only []
  (repeat' split) <;> simp
@[simp] theorem State.remap_tagLast (k : SlotNo) (h : Handle) (g : Grant) (s : State) : (s.remap k h g).tagLast = s.tagLast := by
  unfold State.remap
  simp only []
  (repeat' split) <;> simp
@[simp] theorem State.remap_queue (k : SlotNo) (h : Handle) (g : Grant) (s : State) : (s.remap k h g).queue = s.queue := by
  unfold State.remap
  simp only []
  (repeat' split) <;> simp
@[simp] theorem State.remap_writeLast (k : SlotNo) (h : Handle) (g : Grant) (s : State) : (s.remap k h g).writeLast = s.writeLast := by
  unfold State.remap
  simp only []
  (repeat' split) <;> simp
@[simp] theorem State.remap_order (k : SlotNo) (h : Handle) (g : Grant) (s : State) : (s.remap k h g).order = s.order := by
  unfold State.remap
  simp only []
  (repeat' split) <;> simp
@[simp] theorem State.remap_timing (k : SlotNo) (h : Handle) (g : Grant) (s : State) : (s.remap k h g).timing = s.timing := by
  unfold State.remap
  simp only []
  (repeat' split) <;> simp
@[simp] theorem State.remap_link (k : SlotNo) (h : Handle) (g : Grant) (s : State) : (s.remap k h g).link = s.link := by
  unfold State.remap
  simp only []
  (repeat' split) <;> simp
@[simp] theorem State.remap_answers (k : SlotNo) (h : Handle) (g : Grant) (s : State) : (s.remap k h g).answers = s.answers := by
  unfold State.remap
  simp only []
  (repeat' split) <;> simp
@[simp] theorem State.remap_sent (k : SlotNo) (h : Handle) (g : Grant) (s : State) : (s.remap k h g).sent = s.sent := by
  unfold State.remap
  simp only []
  (repeat' split) <;> simp
@[simp] theorem State.remap_pending (k : SlotNo) (h : Handle) (g : Grant) (s : State) : (s.remap k h g).pending = s.pending := by
  unfold State.remap
  simp only []
  (repeat' split) <;> simp

@[simp] theorem State.relabel_expired (k : SlotNo) (h : Handle) (g : Grant) (s : State) : (s.relabel k h g).expired = s.expired := by
  unfold State.relabel
  split <;> simp
@[simp] theorem State.relabel_ports (k : SlotNo) (h : Handle) (g : Grant) (s : State) : (s.relabel k h g).ports = s.ports := by
  unfold State.relabel
  split <;> simp
@[simp] theorem State.relabel_lrst (k : SlotNo) (h : Handle) (g : Grant) (s : State) : (s.relabel k h g).lrst = s.lrst := by
  unfold State.relabel
  split <;> simp
@[simp] theorem State.relabel_tags (k : SlotNo) (h : Handle) (g : Grant) (s : State) : (s.relabel k h g).tags = s.tags := by
  unfold State.relabel
  split <;> simp
@[simp] theorem State.relabel_tagLast (k : SlotNo) (h : Handle) (g : Grant) (s : State) : (s.relabel k h g).tagLast = s.tagLast := by
  unfold State.relabel
  split <;> simp
@[simp] theorem State.relabel_queue (k : SlotNo) (h : Handle) (g : Grant) (s : State) : (s.relabel k h g).queue = s.queue := by
  unfold State.relabel
  split <;> simp
@[simp] theorem State.relabel_writeLast (k : SlotNo) (h : Handle) (g : Grant) (s : State) : (s.relabel k h g).writeLast = s.writeLast := by
  unfold State.relabel
  split <;> simp
@[simp] theorem State.relabel_order (k : SlotNo) (h : Handle) (g : Grant) (s : State) : (s.relabel k h g).order = s.order := by
  unfold State.relabel
  split <;> simp
@[simp] theorem State.relabel_timing (k : SlotNo) (h : Handle) (g : Grant) (s : State) : (s.relabel k h g).timing = s.timing := by
  unfold State.relabel
  split <;> simp
@[simp] theorem State.relabel_link (k : SlotNo) (h : Handle) (g : Grant) (s : State) : (s.relabel k h g).link = s.link := by
  unfold State.relabel
  split <;> simp
@[simp] theorem State.relabel_answers (k : SlotNo) (h : Handle) (g : Grant) (s : State) : (s.relabel k h g).answers = s.answers := by
  unfold State.relabel
  split <;> simp
@[simp] theorem State.relabel_sent (k : SlotNo) (h : Handle) (g : Grant) (s : State) : (s.relabel k h g).sent = s.sent := by
  unfold State.relabel
  split <;> simp
@[simp] theorem State.relabel_pending (k : SlotNo) (h : Handle) (g : Grant) (s : State) : (s.relabel k h g).pending = s.pending := by
  unfold State.relabel
  split <;> simp

@[simp] theorem State.beginClose_expired (k : SlotNo) (h : Handle) (g : Grant) (s : State) : (s.beginClose k h g).expired = s.expired := by
  unfold State.beginClose
  simp only []
  split <;> simp
@[simp] theorem State.beginClose_ports (k : SlotNo) (h : Handle) (g : Grant) (s : State) : (s.beginClose k h g).ports = s.ports := by
  unfold State.beginClose
  simp only []
  split <;> simp
@[simp] theorem State.beginClose_lrst (k : SlotNo) (h : Handle) (g : Grant) (s : State) : (s.beginClose k h g).lrst = s.lrst := by
  unfold State.beginClose
  simp only []
  split <;> simp
@[simp] theorem State.beginClose_tags (k : SlotNo) (h : Handle) (g : Grant) (s : State) : (s.beginClose k h g).tags = s.tags := by
  unfold State.beginClose
  simp only []
  split <;> simp
@[simp] theorem State.beginClose_tagLast (k : SlotNo) (h : Handle) (g : Grant) (s : State) : (s.beginClose k h g).tagLast = s.tagLast := by
  unfold State.beginClose
  simp only []
  split <;> simp
@[simp] theorem State.beginClose_queue (k : SlotNo) (h : Handle) (g : Grant) (s : State) : (s.beginClose k h g).queue = s.queue := by
  unfold State.beginClose
  simp only []
  split <;> simp
@[simp] theorem State.beginClose_writeLast (k : SlotNo) (h : Handle) (g : Grant) (s : State) : (s.beginClose k h g).writeLast = s.writeLast := by
  unfold State.beginClose
  simp only []
  split <;> simp
@[simp] theorem State.beginClose_order (k : SlotNo) (h : Handle) (g : Grant) (s : State) : (s.beginClose k h g).order = s.order := by
  unfold State.beginClose
  simp only []
  split <;> simp
@[simp] theorem State.beginClose_timing (k : SlotNo) (h : Handle) (g : Grant) (s : State) : (s.beginClose k h g).timing = s.timing := by
  unfold State.beginClose
  simp only []
  split <;> simp
@[simp] theorem State.beginClose_link (k : SlotNo) (h : Handle) (g : Grant) (s : State) : (s.beginClose k h g).link = s.link := by
  unfold State.beginClose
  simp only []
  split <;> simp
@[simp] theorem State.beginClose_answers (k : SlotNo) (h : Handle) (g : Grant) (s : State) : (s.beginClose k h g).answers = s.answers := by
  unfold State.beginClose
  simp only []
  split <;> simp
@[simp] theorem State.beginClose_sent (k : SlotNo) (h : Handle) (g : Grant) (s : State) : (s.beginClose k h g).sent = s.sent := by
  unfold State.beginClose
  simp only []
  split <;> simp
@[simp] theorem State.beginClose_pending (k : SlotNo) (h : Handle) (g : Grant) (s : State) : (s.beginClose k h g).pending = s.pending := by
  unfold State.beginClose
  simp only []
  split <;> simp

@[simp] theorem cmdOpen_expired (k : SlotNo) (s : State) : (cmdOpen k s).expired = s.expired := by
  unfold cmdOpen
  (repeat' split) <;> simp
@[simp] theorem cmdOpen_ports (k : SlotNo) (s : State) : (cmdOpen k s).ports = s.ports := by
  unfold cmdOpen
  (repeat' split) <;> simp
@[simp] theorem cmdOpen_lrst (k : SlotNo) (s : State) : (cmdOpen k s).lrst = s.lrst := by
  unfold cmdOpen
  (repeat' split) <;> simp
@[simp] theorem cmdOpen_tags (k : SlotNo) (s : State) : (cmdOpen k s).tags = s.tags := by
  unfold cmdOpen
  (repeat' split) <;> simp
@[simp] theorem cmdOpen_tagLast (k : SlotNo) (s : State) : (cmdOpen k s).tagLast = s.tagLast := by
  unfold cmdOpen
  (repeat' split) <;> simp
@[simp] theorem cmdOpen_queue (k : SlotNo) (s : State) : (cmdOpen k s).queue = s.queue := by
  unfold cmdOpen
  (repeat' split) <;> simp
@[simp] theorem cmdOpen_writeLast (k : SlotNo) (s : State) : (cmdOpen k s).writeLast = s.writeLast := by
  unfold cmdOpen
  (repeat' split) <;> simp
@[simp] theorem cmdOpen_order (k : SlotNo) (s : State) : (cmdOpen k s).order = s.order := by
  unfold cmdOpen
  (repeat' split) <;> simp
@[simp] theorem cmdOpen_timing (k : SlotNo) (s : State) : (cmdOpen k s).timing = s.timing := by
  unfold cmdOpen
  (repeat' split) <;> simp
@[simp] theorem cmdOpen_link (k : SlotNo) (s : State) : (cmdOpen k s).link = s.link := by
  unfold cmdOpen
  (repeat' split) <;> simp
@[simp] theorem cmdOpen_answers (k : SlotNo) (s : State) : (cmdOpen k s).answers = s.answers := by
  unfold cmdOpen
  (repeat' split) <;> simp
@[simp] theorem cmdOpen_sent (k : SlotNo) (s : State) : (cmdOpen k s).sent = s.sent := by
  unfold cmdOpen
  (repeat' split) <;> simp
@[simp] theorem cmdOpen_pending (k : SlotNo) (s : State) : (cmdOpen k s).pending = s.pending := by
  unfold cmdOpen
  (repeat' split) <;> simp

@[simp] theorem cmdModify_expired (k : SlotNo) (s : State) : (cmdModify k s).expired = s.expired := by
  unfold cmdModify
  simp only []
  (repeat' split) <;> simp
@[simp] theorem cmdModify_ports (k : SlotNo) (s : State) : (cmdModify k s).ports = s.ports := by
  unfold cmdModify
  simp only []
  (repeat' split) <;> simp
@[simp] theorem cmdModify_lrst (k : SlotNo) (s : State) : (cmdModify k s).lrst = s.lrst := by
  unfold cmdModify
  simp only []
  (repeat' split) <;> simp
@[simp] theorem cmdModify_tags (k : SlotNo) (s : State) : (cmdModify k s).tags = s.tags := by
  unfold cmdModify
  simp only []
  (repeat' split) <;> simp
@[simp] theorem cmdModify_tagLast (k : SlotNo) (s : State) : (cmdModify k s).tagLast = s.tagLast := by
  unfold cmdModify
  simp only []
  (repeat' split) <;> simp
@[simp] theorem cmdModify_queue (k : SlotNo) (s : State) : (cmdModify k s).queue = s.queue := by
  unfold cmdModify
  simp only []
  (repeat' split) <;> simp
@[simp] theorem cmdModify_writeLast (k : SlotNo) (s : State) : (cmdModify k s).writeLast = s.writeLast := by
  unfold cmdModify
  simp only []
  (repeat' split) <;> simp
@[simp] theorem cmdModify_order (k : SlotNo) (s : State) : (cmdModify k s).order = s.order := by
  unfold cmdModify
  simp only []
  (repeat' split) <;> simp
@[simp] theorem cmdModify_timing (k : SlotNo) (s : State) : (cmdModify k s).timing = s.timing := by
  unfold cmdModify
  simp only []
  (repeat' split) <;> simp
@[simp] theorem cmdModify_link (k : SlotNo) (s : State) : (cmdModify k s).link = s.link := by
  unfold cmdModify
  simp only []
  (repeat' split) <;> simp
@[simp] theorem cmdModify_answers (k : SlotNo) (s : State) : (cmdModify k s).answers = s.answers := by
  unfold cmdModify
  simp only []
  (repeat' split) <;> simp
@[simp] theorem cmdModify_sent (k : SlotNo) (s : State) : (cmdModify k s).sent = s.sent := by
  unfold cmdModify
  simp only []
  (repeat' split) <;> simp
@[simp] theorem cmdModify_pending (k : SlotNo) (s : State) : (cmdModify k s).pending = s.pending := by
  unfold cmdModify
  simp only []
  (repeat' split) <;> simp

@[simp] theorem cmdClose_expired (k : SlotNo) (s : State) : (cmdClose k s).expired = s.expired := by
  unfold cmdClose
  simp only []
  (repeat' split) <;> simp
@[simp] theorem cmdClose_ports (k : SlotNo) (s : State) : (cmdClose k s).ports = s.ports := by
  unfold cmdClose
  simp only []
  (repeat' split) <;> simp
@[simp] theorem cmdClose_lrst (k : SlotNo) (s : State) : (cmdClose k s).lrst = s.lrst := by
  unfold cmdClose
  simp only []
  (repeat' split) <;> simp
@[simp] theorem cmdClose_tags (k : SlotNo) (s : State) : (cmdClose k s).tags = s.tags := by
  unfold cmdClose
  simp only []
  (repeat' split) <;> simp
@[simp] theorem cmdClose_tagLast (k : SlotNo) (s : State) : (cmdClose k s).tagLast = s.tagLast := by
  unfold cmdClose
  simp only []
  (repeat' split) <;> simp
@[simp] theorem cmdClose_queue (k : SlotNo) (s : State) : (cmdClose k s).queue = s.queue := by
  unfold cmdClose
  simp only []
  (repeat' split) <;> simp
@[simp] theorem cmdClose_writeLast (k : SlotNo) (s : State) : (cmdClose k s).writeLast = s.writeLast := by
  unfold cmdClose
  simp only []
  (repeat' split) <;> simp
@[simp] theorem cmdClose_order (k : SlotNo) (s : State) : (cmdClose k s).order = s.order := by
  unfold cmdClose
  simp only []
  (repeat' split) <;> simp
@[simp] theorem cmdClose_timing (k : SlotNo) (s : State) : (cmdClose k s).timing = s.timing := by
  unfold cmdClose
  simp only []
  (repeat' split) <;> simp
@[simp] theorem cmdClose_link (k : SlotNo) (s : State) : (cmdClose k s).link = s.link := by
  unfold cmdClose
  simp only []
  (repeat' split) <;> simp
@[simp] theorem cmdClose_answers (k : SlotNo) (s : State) : (cmdClose k s).answers = s.answers := by
  unfold cmdClose
  simp only []
  (repeat' split) <;> simp
@[simp] theorem cmdClose_sent (k : SlotNo) (s : State) : (cmdClose k s).sent = s.sent := by
  unfold cmdClose
  simp only []
  (repeat' split) <;> simp
@[simp] theorem cmdClose_pending (k : SlotNo) (s : State) : (cmdClose k s).pending = s.pending := by
  unfold cmdClose
  simp only []
  (repeat' split) <;> simp

@[simp] theorem cmdRenew_expired (k : SlotNo) (s : State) : (cmdRenew k s).expired = s.expired := by
  unfold cmdRenew
  simp only []
  (repeat' split) <;> simp
@[simp] theorem cmdRenew_ports (k : SlotNo) (s : State) : (cmdRenew k s).ports = s.ports := by
  unfold cmdRenew
  simp only []
  (repeat' split) <;> simp
@[simp] theorem cmdRenew_lrst (k : SlotNo) (s : State) : (cmdRenew k s).lrst = s.lrst := by
  unfold cmdRenew
  simp only []
  (repeat' split) <;> simp
@[simp] theorem cmdRenew_tags (k : SlotNo) (s : State) : (cmdRenew k s).tags = s.tags := by
  unfold cmdRenew
  simp only []
  (repeat' split) <;> simp
@[simp] theorem cmdRenew_tagLast (k : SlotNo) (s : State) : (cmdRenew k s).tagLast = s.tagLast := by
  unfold cmdRenew
  simp only []
  (repeat' split) <;> simp
@[simp] theorem cmdRenew_queue (k : SlotNo) (s : State) : (cmdRenew k s).queue = s.queue := by
  unfold cmdRenew
  simp only []
  (repeat' split) <;> simp
@[simp] theorem cmdRenew_writeLast (k : SlotNo) (s : State) : (cmdRenew k s).writeLast = s.writeLast := by
  unfold cmdRenew
  simp only []
  (repeat' split) <;> simp
@[simp] theorem cmdRenew_order (k : SlotNo) (s : State) : (cmdRenew k s).order = s.order := by
  unfold cmdRenew
  simp only []
  (repeat' split) <;> simp
@[simp] theorem cmdRenew_timing (k : SlotNo) (s : State) : (cmdRenew k s).timing = s.timing := by
  unfold cmdRenew
  simp only []
  (repeat' split) <;> simp
@[simp] theorem cmdRenew_link (k : SlotNo) (s : State) : (cmdRenew k s).link = s.link := by
  unfold cmdRenew
  simp only []
  (repeat' split) <;> simp
@[simp] theorem cmdRenew_answers (k : SlotNo) (s : State) : (cmdRenew k s).answers = s.answers := by
  unfold cmdRenew
  simp only []
  (repeat' split) <;> simp
@[simp] theorem cmdRenew_sent (k : SlotNo) (s : State) : (cmdRenew k s).sent = s.sent := by
  unfold cmdRenew
  simp only []
  (repeat' split) <;> simp
@[simp] theorem cmdRenew_pending (k : SlotNo) (s : State) : (cmdRenew k s).pending = s.pending := by
  unfold cmdRenew
  simp only []
  (repeat' split) <;> simp

@[simp] theorem cmdQuery_grants (k : SlotNo) (s : State) : (cmdQuery k s).grants = s.grants := by
  unfold cmdQuery
  simp only []
  (repeat' split) <;> simp
@[simp] theorem cmdQuery_expired (k : SlotNo) (s : State) : (cmdQuery k s).expired = s.expired := by
  unfold cmdQuery
  simp only []
  (repeat' split) <;> simp
@[simp] theorem cmdQuery_ports (k : SlotNo) (s : State) : (cmdQuery k s).ports = s.ports := by
  unfold cmdQuery
  simp only []
  (repeat' split) <;> simp
@[simp] theorem cmdQuery_lrst (k : SlotNo) (s : State) : (cmdQuery k s).lrst = s.lrst := by
  unfold cmdQuery
  simp only []
  (repeat' split) <;> simp
@[simp] theorem cmdQuery_tags (k : SlotNo) (s : State) : (cmdQuery k s).tags = s.tags := by
  unfold cmdQuery
  simp only []
  (repeat' split) <;> simp
@[simp] theorem cmdQuery_tagLast (k : SlotNo) (s : State) : (cmdQuery k s).tagLast = s.tagLast := by
  unfold cmdQuery
  simp only []
  (repeat' split) <;> simp
@[simp] theorem cmdQuery_queue (k : SlotNo) (s : State) : (cmdQuery k s).queue = s.queue := by
  unfold cmdQuery
  simp only []
  (repeat' split) <;> simp
@[simp] theorem cmdQuery_writeLast (k : SlotNo) (s : State) : (cmdQuery k s).writeLast = s.writeLast := by
  unfold cmdQuery
  simp only []
  (repeat' split) <;> simp
@[simp] theorem cmdQuery_order (k : SlotNo) (s : State) : (cmdQuery k s).order = s.order := by
  unfold cmdQuery
  simp only []
  (repeat' split) <;> simp
@[simp] theorem cmdQuery_timing (k : SlotNo) (s : State) : (cmdQuery k s).timing = s.timing := by
  unfold cmdQuery
  simp only []
  (repeat' split) <;> simp
@[simp] theorem cmdQuery_link (k : SlotNo) (s : State) : (cmdQuery k s).link = s.link := by
  unfold cmdQuery
  simp only []
  (repeat' split) <;> simp
@[simp] theorem cmdQuery_answers (k : SlotNo) (s : State) : (cmdQuery k s).answers = s.answers := by
  unfold cmdQuery
  simp only []
  (repeat' split) <;> simp
@[simp] theorem cmdQuery_sent (k : SlotNo) (s : State) : (cmdQuery k s).sent = s.sent := by
  unfold cmdQuery
  simp only []
  (repeat' split) <;> simp
@[simp] theorem cmdQuery_pending (k : SlotNo) (s : State) : (cmdQuery k s).pending = s.pending := by
  unfold cmdQuery
  simp only []
  (repeat' split) <;> simp

@[simp] theorem cmdLookup_grants (k : SlotNo) (s : State) : (cmdLookup k s).grants = s.grants := by
  unfold cmdLookup
  simp only []
  (repeat' split) <;> simp
@[simp] theorem cmdLookup_expired (k : SlotNo) (s : State) : (cmdLookup k s).expired = s.expired := by
  unfold cmdLookup
  simp only []
  (repeat' split) <;> simp
@[simp] theorem cmdLookup_ports (k : SlotNo) (s : State) : (cmdLookup k s).ports = s.ports := by
  unfold cmdLookup
  simp only []
  (repeat' split) <;> simp
@[simp] theorem cmdLookup_lrst (k : SlotNo) (s : State) : (cmdLookup k s).lrst = s.lrst := by
  unfold cmdLookup
  simp only []
  (repeat' split) <;> simp
@[simp] theorem cmdLookup_tags (k : SlotNo) (s : State) : (cmdLookup k s).tags = s.tags := by
  unfold cmdLookup
  simp only []
  (repeat' split) <;> simp
@[simp] theorem cmdLookup_tagLast (k : SlotNo) (s : State) : (cmdLookup k s).tagLast = s.tagLast := by
  unfold cmdLookup
  simp only []
  (repeat' split) <;> simp
@[simp] theorem cmdLookup_queue (k : SlotNo) (s : State) : (cmdLookup k s).queue = s.queue := by
  unfold cmdLookup
  simp only []
  (repeat' split) <;> simp
@[simp] theorem cmdLookup_writeLast (k : SlotNo) (s : State) : (cmdLookup k s).writeLast = s.writeLast := by
  unfold cmdLookup
  simp only []
  (repeat' split) <;> simp
@[simp] theorem cmdLookup_order (k : SlotNo) (s : State) : (cmdLookup k s).order = s.order := by
  unfold cmdLookup
  simp only []
  (repeat' split) <;> simp
@[simp] theorem cmdLookup_timing (k : SlotNo) (s : State) : (cmdLookup k s).timing = s.timing := by
  unfold cmdLookup
  simp only []
  (repeat' split) <;> simp
@[simp] theorem cmdLookup_link (k : SlotNo) (s : State) : (cmdLookup k s).link = s.link := by
  unfold cmdLookup
  simp only []
  (repeat' split) <;> simp
@[simp] theorem cmdLookup_answers (k : SlotNo) (s : State) : (cmdLookup k s).answers = s.answers := by
  unfold cmdLookup
  simp only []
  (repeat' split) <;> simp
@[simp] theorem cmdLookup_sent (k : SlotNo) (s : State) : (cmdLookup k s).sent = s.sent := by
  unfold cmdLookup
  simp only []
  (repeat' split) <;> simp
@[simp] theorem cmdLookup_pending (k : SlotNo) (s : State) : (cmdLookup k s).pending = s.pending := by
  unfold cmdLookup
  simp only []
  (repeat' split) <;> simp

@[simp] theorem cmdFence_grants (k : SlotNo) (s : State) : (cmdFence k s).grants = s.grants := by
  unfold cmdFence
  simp only []
  (repeat' split) <;> simp
@[simp] theorem cmdFence_expired (k : SlotNo) (s : State) : (cmdFence k s).expired = s.expired := by
  unfold cmdFence
  simp only []
  (repeat' split) <;> simp
@[simp] theorem cmdFence_ports (k : SlotNo) (s : State) : (cmdFence k s).ports = s.ports := by
  unfold cmdFence
  simp only []
  (repeat' split) <;> simp
@[simp] theorem cmdFence_lrst (k : SlotNo) (s : State) : (cmdFence k s).lrst = s.lrst := by
  unfold cmdFence
  simp only []
  (repeat' split) <;> simp
@[simp] theorem cmdFence_tags (k : SlotNo) (s : State) : (cmdFence k s).tags = s.tags := by
  unfold cmdFence
  simp only []
  (repeat' split) <;> simp
@[simp] theorem cmdFence_tagLast (k : SlotNo) (s : State) : (cmdFence k s).tagLast = s.tagLast := by
  unfold cmdFence
  simp only []
  (repeat' split) <;> simp
@[simp] theorem cmdFence_queue (k : SlotNo) (s : State) : (cmdFence k s).queue = s.queue := by
  unfold cmdFence
  simp only []
  (repeat' split) <;> simp
@[simp] theorem cmdFence_writeLast (k : SlotNo) (s : State) : (cmdFence k s).writeLast = s.writeLast := by
  unfold cmdFence
  simp only []
  (repeat' split) <;> simp
@[simp] theorem cmdFence_order (k : SlotNo) (s : State) : (cmdFence k s).order = s.order := by
  unfold cmdFence
  simp only []
  (repeat' split) <;> simp
@[simp] theorem cmdFence_timing (k : SlotNo) (s : State) : (cmdFence k s).timing = s.timing := by
  unfold cmdFence
  simp only []
  (repeat' split) <;> simp
@[simp] theorem cmdFence_link (k : SlotNo) (s : State) : (cmdFence k s).link = s.link := by
  unfold cmdFence
  simp only []
  (repeat' split) <;> simp
@[simp] theorem cmdFence_answers (k : SlotNo) (s : State) : (cmdFence k s).answers = s.answers := by
  unfold cmdFence
  simp only []
  (repeat' split) <;> simp
@[simp] theorem cmdFence_sent (k : SlotNo) (s : State) : (cmdFence k s).sent = s.sent := by
  unfold cmdFence
  simp only []
  (repeat' split) <;> simp
@[simp] theorem cmdFence_pending (k : SlotNo) (s : State) : (cmdFence k s).pending = s.pending := by
  unfold cmdFence
  simp only []
  (repeat' split) <;> simp

@[simp] theorem cmdSetRequester_grants (k : SlotNo) (s : State) : (cmdSetRequester k s).grants = s.grants := by
  unfold cmdSetRequester
  simp only []
  (repeat' split) <;> simp
@[simp] theorem cmdSetRequester_expired (k : SlotNo) (s : State) : (cmdSetRequester k s).expired = s.expired := by
  unfold cmdSetRequester
  simp only []
  (repeat' split) <;> simp
@[simp] theorem cmdSetRequester_lrst (k : SlotNo) (s : State) : (cmdSetRequester k s).lrst = s.lrst := by
  unfold cmdSetRequester
  simp only []
  (repeat' split) <;> simp
@[simp] theorem cmdSetRequester_tags (k : SlotNo) (s : State) : (cmdSetRequester k s).tags = s.tags := by
  unfold cmdSetRequester
  simp only []
  (repeat' split) <;> simp
@[simp] theorem cmdSetRequester_tagLast (k : SlotNo) (s : State) : (cmdSetRequester k s).tagLast = s.tagLast := by
  unfold cmdSetRequester
  simp only []
  (repeat' split) <;> simp
@[simp] theorem cmdSetRequester_queue (k : SlotNo) (s : State) : (cmdSetRequester k s).queue = s.queue := by
  unfold cmdSetRequester
  simp only []
  (repeat' split) <;> simp
@[simp] theorem cmdSetRequester_writeLast (k : SlotNo) (s : State) : (cmdSetRequester k s).writeLast = s.writeLast := by
  unfold cmdSetRequester
  simp only []
  (repeat' split) <;> simp
@[simp] theorem cmdSetRequester_order (k : SlotNo) (s : State) : (cmdSetRequester k s).order = s.order := by
  unfold cmdSetRequester
  simp only []
  (repeat' split) <;> simp
@[simp] theorem cmdSetRequester_timing (k : SlotNo) (s : State) : (cmdSetRequester k s).timing = s.timing := by
  unfold cmdSetRequester
  simp only []
  (repeat' split) <;> simp
@[simp] theorem cmdSetRequester_link (k : SlotNo) (s : State) : (cmdSetRequester k s).link = s.link := by
  unfold cmdSetRequester
  simp only []
  (repeat' split) <;> simp
@[simp] theorem cmdSetRequester_answers (k : SlotNo) (s : State) : (cmdSetRequester k s).answers = s.answers := by
  unfold cmdSetRequester
  simp only []
  (repeat' split) <;> simp
@[simp] theorem cmdSetRequester_sent (k : SlotNo) (s : State) : (cmdSetRequester k s).sent = s.sent := by
  unfold cmdSetRequester
  simp only []
  (repeat' split) <;> simp
@[simp] theorem cmdSetRequester_pending (k : SlotNo) (s : State) : (cmdSetRequester k s).pending = s.pending := by
  unfold cmdSetRequester
  simp only []
  (repeat' split) <;> simp

@[simp] theorem cmdQueryRequester_grants (k : SlotNo) (s : State) : (cmdQueryRequester k s).grants = s.grants := by
  unfold cmdQueryRequester
  simp
@[simp] theorem cmdQueryRequester_expired (k : SlotNo) (s : State) : (cmdQueryRequester k s).expired = s.expired := by
  unfold cmdQueryRequester
  simp
@[simp] theorem cmdQueryRequester_ports (k : SlotNo) (s : State) : (cmdQueryRequester k s).ports = s.ports := by
  unfold cmdQueryRequester
  simp
@[simp] theorem cmdQueryRequester_lrst (k : SlotNo) (s : State) : (cmdQueryRequester k s).lrst = s.lrst := by
  unfold cmdQueryRequester
  simp
@[simp] theorem cmdQueryRequester_tags (k : SlotNo) (s : State) : (cmdQueryRequester k s).tags = s.tags := by
  unfold cmdQueryRequester
  simp
@[simp] theorem cmdQueryRequester_tagLast (k : SlotNo) (s : State) : (cmdQueryRequester k s).tagLast = s.tagLast := by
  unfold cmdQueryRequester
  simp
@[simp] theorem cmdQueryRequester_queue (k : SlotNo) (s : State) : (cmdQueryRequester k s).queue = s.queue := by
  unfold cmdQueryRequester
  simp
@[simp] theorem cmdQueryRequester_writeLast (k : SlotNo) (s : State) : (cmdQueryRequester k s).writeLast = s.writeLast := by
  unfold cmdQueryRequester
  simp
@[simp] theorem cmdQueryRequester_order (k : SlotNo) (s : State) : (cmdQueryRequester k s).order = s.order := by
  unfold cmdQueryRequester
  simp
@[simp] theorem cmdQueryRequester_timing (k : SlotNo) (s : State) : (cmdQueryRequester k s).timing = s.timing := by
  unfold cmdQueryRequester
  simp
@[simp] theorem cmdQueryRequester_link (k : SlotNo) (s : State) : (cmdQueryRequester k s).link = s.link := by
  unfold cmdQueryRequester
  simp
@[simp] theorem cmdQueryRequester_answers (k : SlotNo) (s : State) : (cmdQueryRequester k s).answers = s.answers := by
  unfold cmdQueryRequester
  simp
@[simp] theorem cmdQueryRequester_sent (k : SlotNo) (s : State) : (cmdQueryRequester k s).sent = s.sent := by
  unfold cmdQueryRequester
  simp
@[simp] theorem cmdQueryRequester_pending (k : SlotNo) (s : State) : (cmdQueryRequester k s).pending = s.pending := by
  unfold cmdQueryRequester
  simp

@[simp] theorem cmdResume_grants (k : SlotNo) (s : State) : (cmdResume k s).grants = s.grants := by
  unfold cmdResume
  simp only []
  simp
@[simp] theorem cmdResume_expired (k : SlotNo) (s : State) : (cmdResume k s).expired = s.expired := by
  unfold cmdResume
  simp only []
  simp
@[simp] theorem cmdResume_lrst (k : SlotNo) (s : State) : (cmdResume k s).lrst = s.lrst := by
  unfold cmdResume
  simp only []
  simp
@[simp] theorem cmdResume_tags (k : SlotNo) (s : State) : (cmdResume k s).tags = s.tags := by
  unfold cmdResume
  simp only []
  simp
@[simp] theorem cmdResume_tagLast (k : SlotNo) (s : State) : (cmdResume k s).tagLast = s.tagLast := by
  unfold cmdResume
  simp only []
  simp
@[simp] theorem cmdResume_queue (k : SlotNo) (s : State) : (cmdResume k s).queue = s.queue := by
  unfold cmdResume
  simp only []
  simp
@[simp] theorem cmdResume_writeLast (k : SlotNo) (s : State) : (cmdResume k s).writeLast = s.writeLast := by
  unfold cmdResume
  simp only []
  simp
@[simp] theorem cmdResume_order (k : SlotNo) (s : State) : (cmdResume k s).order = s.order := by
  unfold cmdResume
  simp only []
  simp
@[simp] theorem cmdResume_timing (k : SlotNo) (s : State) : (cmdResume k s).timing = s.timing := by
  unfold cmdResume
  simp only []
  simp
@[simp] theorem cmdResume_link (k : SlotNo) (s : State) : (cmdResume k s).link = s.link := by
  unfold cmdResume
  simp only []
  simp
@[simp] theorem cmdResume_answers (k : SlotNo) (s : State) : (cmdResume k s).answers = s.answers := by
  unfold cmdResume
  simp only []
  simp
@[simp] theorem cmdResume_sent (k : SlotNo) (s : State) : (cmdResume k s).sent = s.sent := by
  unfold cmdResume
  simp only []
  simp
@[simp] theorem cmdResume_pending (k : SlotNo) (s : State) : (cmdResume k s).pending = s.pending := by
  unfold cmdResume
  simp only []
  simp

@[simp] theorem cmdResetRequester_grants (k : SlotNo) (s : State) : (cmdResetRequester k s).grants = s.grants := by
  unfold cmdResetRequester
  simp only []
  simp
@[simp] theorem cmdResetRequester_expired (k : SlotNo) (s : State) : (cmdResetRequester k s).expired = s.expired := by
  unfold cmdResetRequester
  simp only []
  simp
@[simp] theorem cmdResetRequester_lrst (k : SlotNo) (s : State) : (cmdResetRequester k s).lrst = s.lrst := by
  unfold cmdResetRequester
  simp only []
  simp
@[simp] theorem cmdResetRequester_tagLast (k : SlotNo) (s : State) : (cmdResetRequester k s).tagLast = s.tagLast := by
  unfold cmdResetRequester
  simp only []
  simp
@[simp] theorem cmdResetRequester_queue (k : SlotNo) (s : State) : (cmdResetRequester k s).queue = s.queue := by
  unfold cmdResetRequester
  simp only []
  simp
@[simp] theorem cmdResetRequester_writeLast (k : SlotNo) (s : State) : (cmdResetRequester k s).writeLast = s.writeLast := by
  unfold cmdResetRequester
  simp only []
  simp
@[simp] theorem cmdResetRequester_order (k : SlotNo) (s : State) : (cmdResetRequester k s).order = s.order := by
  unfold cmdResetRequester
  simp only []
  simp
@[simp] theorem cmdResetRequester_timing (k : SlotNo) (s : State) : (cmdResetRequester k s).timing = s.timing := by
  unfold cmdResetRequester
  simp only []
  simp
@[simp] theorem cmdResetRequester_link (k : SlotNo) (s : State) : (cmdResetRequester k s).link = s.link := by
  unfold cmdResetRequester
  simp only []
  simp
@[simp] theorem cmdResetRequester_answers (k : SlotNo) (s : State) : (cmdResetRequester k s).answers = s.answers := by
  unfold cmdResetRequester
  simp only []
  simp
@[simp] theorem cmdResetRequester_sent (k : SlotNo) (s : State) : (cmdResetRequester k s).sent = s.sent := by
  unfold cmdResetRequester
  simp only []
  simp
@[simp] theorem cmdResetRequester_pending (k : SlotNo) (s : State) : (cmdResetRequester k s).pending = s.pending := by
  unfold cmdResetRequester
  simp only []
  simp

@[simp] theorem cmdSetTiming_grants (k : SlotNo) (s : State) : (cmdSetTiming k s).grants = s.grants := by
  unfold cmdSetTiming
  (repeat' split) <;> simp
@[simp] theorem cmdSetTiming_expired (k : SlotNo) (s : State) : (cmdSetTiming k s).expired = s.expired := by
  unfold cmdSetTiming
  (repeat' split) <;> simp
@[simp] theorem cmdSetTiming_ports (k : SlotNo) (s : State) : (cmdSetTiming k s).ports = s.ports := by
  unfold cmdSetTiming
  (repeat' split) <;> simp
@[simp] theorem cmdSetTiming_lrst (k : SlotNo) (s : State) : (cmdSetTiming k s).lrst = s.lrst := by
  unfold cmdSetTiming
  (repeat' split) <;> simp
@[simp] theorem cmdSetTiming_tags (k : SlotNo) (s : State) : (cmdSetTiming k s).tags = s.tags := by
  unfold cmdSetTiming
  (repeat' split) <;> simp
@[simp] theorem cmdSetTiming_tagLast (k : SlotNo) (s : State) : (cmdSetTiming k s).tagLast = s.tagLast := by
  unfold cmdSetTiming
  (repeat' split) <;> simp
@[simp] theorem cmdSetTiming_queue (k : SlotNo) (s : State) : (cmdSetTiming k s).queue = s.queue := by
  unfold cmdSetTiming
  (repeat' split) <;> simp
@[simp] theorem cmdSetTiming_writeLast (k : SlotNo) (s : State) : (cmdSetTiming k s).writeLast = s.writeLast := by
  unfold cmdSetTiming
  (repeat' split) <;> simp
@[simp] theorem cmdSetTiming_order (k : SlotNo) (s : State) : (cmdSetTiming k s).order = s.order := by
  unfold cmdSetTiming
  (repeat' split) <;> simp
@[simp] theorem cmdSetTiming_link (k : SlotNo) (s : State) : (cmdSetTiming k s).link = s.link := by
  unfold cmdSetTiming
  (repeat' split) <;> simp
@[simp] theorem cmdSetTiming_answers (k : SlotNo) (s : State) : (cmdSetTiming k s).answers = s.answers := by
  unfold cmdSetTiming
  (repeat' split) <;> simp
@[simp] theorem cmdSetTiming_sent (k : SlotNo) (s : State) : (cmdSetTiming k s).sent = s.sent := by
  unfold cmdSetTiming
  (repeat' split) <;> simp
@[simp] theorem cmdSetTiming_pending (k : SlotNo) (s : State) : (cmdSetTiming k s).pending = s.pending := by
  unfold cmdSetTiming
  (repeat' split) <;> simp

@[simp] theorem cmdBadop_grants (k : SlotNo) (s : State) : (cmdBadop k s).grants = s.grants := by
  unfold cmdBadop
  simp
@[simp] theorem cmdBadop_expired (k : SlotNo) (s : State) : (cmdBadop k s).expired = s.expired := by
  unfold cmdBadop
  simp
@[simp] theorem cmdBadop_ports (k : SlotNo) (s : State) : (cmdBadop k s).ports = s.ports := by unfold cmdBadop; simp
@[simp] theorem cmdBadop_lrst (k : SlotNo) (s : State) : (cmdBadop k s).lrst = s.lrst := by unfold cmdBadop; simp
@[simp] theorem cmdBadop_tags (k : SlotNo) (s : State) : (cmdBadop k s).tags = s.tags := by unfold cmdBadop; simp
@[simp] theorem cmdBadop_tagLast (k : SlotNo) (s : State) : (cmdBadop k s).tagLast = s.tagLast := by
  unfold cmdBadop
  simp
@[simp] theorem cmdBadop_queue (k : SlotNo) (s : State) : (cmdBadop k s).queue = s.queue := by unfold cmdBadop; simp
@[simp] theorem cmdBadop_writeLast (k : SlotNo) (s : State) : (cmdBadop k s).writeLast = s.writeLast := by
  unfold cmdBadop
  simp
@[simp] theorem cmdBadop_order (k : SlotNo) (s : State) : (cmdBadop k s).order = s.order := by unfold cmdBadop; simp
@[simp] theorem cmdBadop_timing (k : SlotNo) (s : State) : (cmdBadop k s).timing = s.timing := by
  unfold cmdBadop
  simp
@[simp] theorem cmdBadop_link (k : SlotNo) (s : State) : (cmdBadop k s).link = s.link := by unfold cmdBadop; simp
@[simp] theorem cmdBadop_answers (k : SlotNo) (s : State) : (cmdBadop k s).answers = s.answers := by
  unfold cmdBadop
  simp
@[simp] theorem cmdBadop_sent (k : SlotNo) (s : State) : (cmdBadop k s).sent = s.sent := by unfold cmdBadop; simp
@[simp] theorem cmdBadop_pending (k : SlotNo) (s : State) : (cmdBadop k s).pending = s.pending := by
  unfold cmdBadop
  simp

@[simp] theorem State.tick_expired (s : State) : (s.tick).expired = s.expired := by unfold State.tick; split <;> rfl
@[simp] theorem State.tick_ports (s : State) : (s.tick).ports = s.ports := by unfold State.tick; split <;> rfl
@[simp] theorem State.tick_lrst (s : State) : (s.tick).lrst = s.lrst := by unfold State.tick; split <;> rfl
@[simp] theorem State.tick_tagLast (s : State) : (s.tick).tagLast = s.tagLast := by unfold State.tick; split <;> rfl
@[simp] theorem State.tick_queue (s : State) : (s.tick).queue = s.queue := by unfold State.tick; split <;> rfl
@[simp] theorem State.tick_writeLast (s : State) : (s.tick).writeLast = s.writeLast := by
  unfold State.tick
  split <;> rfl
@[simp] theorem State.tick_slots (s : State) : (s.tick).slots = s.slots := by unfold State.tick; split <;> rfl
@[simp] theorem State.tick_order (s : State) : (s.tick).order = s.order := by unfold State.tick; split <;> rfl
@[simp] theorem State.tick_timing (s : State) : (s.tick).timing = s.timing := by unfold State.tick; split <;> rfl
@[simp] theorem State.tick_link (s : State) : (s.tick).link = s.link := by unfold State.tick; split <;> rfl
@[simp] theorem State.tick_answers (s : State) : (s.tick).answers = s.answers := by unfold State.tick; split <;> rfl
@[simp] theorem State.tick_sent (s : State) : (s.tick).sent = s.sent := by unfold State.tick; split <;> rfl
@[simp] theorem State.tick_pending (s : State) : (s.tick).pending = s.pending := by unfold State.tick; split <;> rfl

@[simp] theorem moderate_grants (b s : State) : (moderate b s).grants = s.grants := by
  unfold moderate; simp only []; (repeat' split) <;> simp
@[simp] theorem moderate_expired (b s : State) : (moderate b s).expired = s.expired := by
  unfold moderate; simp only []; (repeat' split) <;> simp
@[simp] theorem moderate_ports (b s : State) : (moderate b s).ports = s.ports := by
  unfold moderate; simp only []; (repeat' split) <;> simp
@[simp] theorem moderate_lrst (b s : State) : (moderate b s).lrst = s.lrst := by
  unfold moderate; simp only []; (repeat' split) <;> simp
@[simp] theorem moderate_tags (b s : State) : (moderate b s).tags = s.tags := by
  unfold moderate; simp only []; (repeat' split) <;> simp
@[simp] theorem moderate_tagLast (b s : State) : (moderate b s).tagLast = s.tagLast := by
  unfold moderate; simp only []; (repeat' split) <;> simp
@[simp] theorem moderate_queue (b s : State) : (moderate b s).queue = s.queue := by
  unfold moderate; simp only []; (repeat' split) <;> simp
@[simp] theorem moderate_writeLast (b s : State) : (moderate b s).writeLast = s.writeLast := by
  unfold moderate; simp only []; (repeat' split) <;> simp
@[simp] theorem moderate_slots (b s : State) : (moderate b s).slots = s.slots := by
  unfold moderate; simp only []; (repeat' split) <;> simp
@[simp] theorem moderate_order (b s : State) : (moderate b s).order = s.order := by
  unfold moderate; simp only []; (repeat' split) <;> simp
@[simp] theorem moderate_timing (b s : State) : (moderate b s).timing = s.timing := by
  unfold moderate; simp only []; (repeat' split) <;> simp
@[simp] theorem moderate_answers (b s : State) : (moderate b s).answers = s.answers := by
  unfold moderate; simp only []; (repeat' split) <;> simp
@[simp] theorem moderate_sent (b s : State) : (moderate b s).sent = s.sent := by
  unfold moderate; simp only []; (repeat' split) <;> simp
@[simp] theorem moderate_pending (b s : State) : (moderate b s).pending = s.pending := by
  unfold moderate; simp only []; (repeat' split) <;> simp

end Sys2Proof.Machine
end

