-- ==== Sys2Proof/Laws/Moderation.lean ====
section
/-! SUPPORT. What moderation does to one change, said once: `moderate_settles` for a change that sets causes and nothing else
in the notice unit, `moderate_quiet` for one that makes no event. -/

namespace Sys2Proof.Machine

open Sys2Proof.Safety

theorem members_zero (w : Nat) : members (0#w) = 0 := by
  simp [members, List.countP_eq_length_filter]

theorem eventsBetween_eq (s y : State) :
    eventsBetween s y = members ((y.notice.status &&& y.notice.enable) &&& ~~~ (s.notice.status &&& s.notice.enable)) :=
  rfl

/-- Whether moderation reaches the threshold: an event or a change of threshold, and the count there. -/
def reaches (s y : State) : Prop :=
  (0 < eventsBetween s y ∨ s.timing.threshold ≠ y.timing.threshold)
    ∧ y.timing.threshold ≤ countAfter y.notice.eventCount (eventsBetween s y)

theorem moderate_of_not_reaches {s y : State} (h : ¬ reaches s y) :
    moderate s y = { y with notice := { y.notice with
      eventCount := countAfter y.notice.eventCount (eventsBetween s y)
      holdoffTimer :=
        if 0 < eventsBetween s y ∧ s.notice.eventCount = 0 ∧ 0 < y.timing.holdoff then some y.timing.holdoff
        else y.notice.holdoffTimer } } := by
  unfold reaches at h
  unfold moderate
  simp only [h, if_false]
  split <;> rfl

theorem moderate_of_master_off {s y : State} (h : reaches s y) (hm : y.notice.masterEnable = false) :
    moderate s y = { y with notice := { y.notice with
      eventCount := countAfter y.notice.eventCount (eventsBetween s y) } } := by
  unfold reaches at h
  unfold moderate State.sendAttempt
  simp only [h, and_self, if_true, hm, Bool.false_eq_true, if_false]

theorem moderate_of_master_on {s y : State} (h : reaches s y) (hm : y.notice.masterEnable = true) :
    moderate s y = { y with
      notice := { y.notice with eventCount := 0, holdoffTimer := none }
      link := { y.link with outbound :=
        if y.notice.status &&& y.notice.enable = 0#15 ∨ Request.message ∈ y.link.outbound then y.link.outbound
        else y.link.outbound ++ [.message] } } := by
  unfold reaches at h
  unfold moderate State.sendAttempt
  simp only [h, and_self, if_true, hm]
  by_cases hp : y.notice.status &&& y.notice.enable = 0#15
  · simp [Notice.pendingSet, hp, State.restartCount]
  · by_cases hmsg : Request.message ∈ y.link.outbound <;>
      simp [Notice.pendingSet, hp, State.restartCount, State.handMessage, Link.hasMessage, hmsg]

/-- The three cases of moderation. -/
theorem moderate_cases (s y : State) :
    (¬ reaches s y ∧ moderate s y = { y with notice := { y.notice with
        eventCount := countAfter y.notice.eventCount (eventsBetween s y)
        holdoffTimer :=
          if 0 < eventsBetween s y ∧ s.notice.eventCount = 0 ∧ 0 < y.timing.holdoff then some y.timing.holdoff
          else y.notice.holdoffTimer } })
      ∨ (reaches s y ∧ y.notice.masterEnable = false ∧ moderate s y = { y with notice := { y.notice with
          eventCount := countAfter y.notice.eventCount (eventsBetween s y) } })
      ∨ (reaches s y ∧ y.notice.masterEnable = true ∧ moderate s y = { y with
          notice := { y.notice with eventCount := 0, holdoffTimer := none }
          link := { y.link with outbound :=
            if y.notice.status &&& y.notice.enable = 0#15 ∨ Request.message ∈ y.link.outbound then y.link.outbound
            else y.link.outbound ++ [.message] } }) := by
  by_cases h : reaches s y
  · cases hm : y.notice.masterEnable
    · exact .inr (.inl ⟨h, rfl, moderate_of_master_off h hm⟩)
    · exact .inr (.inr ⟨h, rfl, moderate_of_master_on h hm⟩)
  · exact .inl ⟨h, moderate_of_not_reaches h⟩

/-- Moderation changes the notice unit and the outbound list only. -/
theorem moderate_frame (s y : State) :
    moderate s y
      = { y with notice := (moderate s y).notice, link := { y.link with outbound := (moderate s y).link.outbound } } := by
  obtain ⟨-, h⟩ | ⟨-, -, h⟩ | ⟨-, -, h⟩ := moderate_cases s y <;> rw [h]

theorem moderate_status (s y : State) : (moderate s y).notice.status = y.notice.status := by
  obtain ⟨-, h⟩ | ⟨-, -, h⟩ | ⟨-, -, h⟩ := moderate_cases s y <;> rw [h]

theorem moderate_enable (s y : State) : (moderate s y).notice.enable = y.notice.enable := by
  obtain ⟨-, h⟩ | ⟨-, -, h⟩ | ⟨-, -, h⟩ := moderate_cases s y <;> rw [h]

theorem moderate_masterEnable (s y : State) : (moderate s y).notice.masterEnable = y.notice.masterEnable := by
  obtain ⟨-, h⟩ | ⟨-, -, h⟩ | ⟨-, -, h⟩ := moderate_cases s y <;> rw [h]

/-- A change that makes no event and keeps the threshold is not moderated. -/
theorem moderate_quiet {s y : State}
    (h : (y.notice.status &&& y.notice.enable) &&& ~~~ (s.notice.status &&& s.notice.enable) = 0#15)
    (ht : y.timing.threshold = s.timing.threshold) : moderate s y = y := by
  have h0 : eventsBetween s y = 0 := by rw [eventsBetween_eq, h]; exact members_zero 15
  rw [moderate_of_not_reaches (by simp [reaches, h0, ht])]
  simp [h0, countAfter]

/-- A change that leaves status and enable as they were makes no event. -/
theorem moderate_same {s y : State} (h : y.notice.status = s.notice.status) (h' : y.notice.enable = s.notice.enable)
    (ht : y.timing.threshold = s.timing.threshold) : moderate s y = y := by
  apply moderate_quiet _ ht
  rw [h, h']
  ext i hi
  simp

/-- What moderation makes of a change that keeps the count and the timer (R157, R158). -/
theorem moderate_moderated {s y : State} (hc : y.notice.eventCount = s.notice.eventCount)
    (ht : y.notice.holdoffTimer = s.notice.holdoffTimer) (hm : y.notice.masterEnable = s.notice.masterEnable) :
    Moderated s (moderate s y) (eventsBetween s y) (decide (s.timing.threshold ≠ y.timing.threshold)) y.link.outbound := by
  have hth : (moderate s y).timing.threshold = y.timing.threshold := by simp
  have hho : (moderate s y).timing.holdoff = y.timing.holdoff := by simp
  constructor
  · intro h0 hr
    have hr' : s.timing.threshold = y.timing.threshold := by simpa using hr
    rw [moderate_of_not_reaches (by simp [reaches, h0, hr'])]
    simp [h0, countAfter, hc, ht]
  · intro hor hle hme
    rw [hth, ← hc] at hle
    have h : reaches s y := ⟨by simpa using hor, hle⟩
    rw [moderate_of_master_on h (hm.trans hme)]
    exact ⟨rfl, rfl, by simp only [Notice.pendingSet]; congr⟩
  · intro hor hle hme
    rw [hth, ← hc] at hle
    have h : reaches s y := ⟨by simpa using hor, hle⟩
    rw [moderate_of_master_off h (hm.trans hme)]
    simp [hc, ht]
  · intro hlt
    rw [hth, ← hc] at hlt
    have h : ¬ reaches s y := fun h => absurd h.2 (Nat.not_le.mpr hlt)
    rw [hho, moderate_of_not_reaches h]
    simp [hc, ht]

/-- A change of `s` to `y`, which is `x` with the causes `c` set, settles: the one lemma that statements about commands
cite. -/
theorem moderate_settles {s x y : State} {c : CauseSet}
    (h : y = { x with notice := { s.notice with status := s.notice.status ||| c } }) :
    Settles s x c (moderate s y) := by
  have hm := moderate_moderated (s := s) (y := y) (by rw [h]) (by rw [h]) (by rw [h])
  have hf := moderate_frame s y
  have hth : (moderate s y).timing.threshold = y.timing.threshold := by simp
  refine ⟨?_, ?_, ?_, ?_, ?_⟩
  · rw [h] at hf ⊢
    exact hf
  · rw [moderate_status, h]
  · rw [moderate_enable, h]
  · rw [moderate_masterEnable, h]
  · rw [eventsBetween_eq] at hm
    rw [moderate_status, moderate_enable, hth]
    rw [show x.link.outbound = y.link.outbound by rw [h]]
    exact hm

end Sys2Proof.Machine
end

