-- ==== Sys2Proof/Laws/Operations.lean ====
section
/-! SUPPORT. What each shared operation does, said once, as one record update in the terms of Sys2Proof/Safety.lean. Proofs
cite these and unfold no operation. -/

namespace Sys2Proof.Machine

open Sys2Proof.Safety

/-- States that agree field by field are equal. -/
theorem State.eq_of_fields {a b : State} (grants : a.grants = b.grants) (expired : a.expired = b.expired)
    (ports : a.ports = b.ports) (lrst : a.lrst = b.lrst) (tags : a.tags = b.tags) (tagLast : a.tagLast = b.tagLast)
    (queue : a.queue = b.queue) (writeLast : a.writeLast = b.writeLast) (slots : a.slots = b.slots)
    (order : a.order = b.order) (timing : a.timing = b.timing) (notice : a.notice = b.notice) (link : a.link = b.link)
    (answers : a.answers = b.answers) (sent : a.sent = b.sent) (pending : a.pending = b.pending) : a = b := by
  cases a
  cases b
  simp_all

/-- Setting an element to what it is changes nothing. -/
theorem vector_set_same {α : Type} {n : Nat} (v : Vector α n) (i : Fin n) : v.set i v[i] = v := by
  ext j hj
  simp only [Vector.getElem_set]
  split
  · subst_vars; rfl
  · rfl

/-! ### Slots -/

theorem State.endSlot_eq (k : SlotNo) (st : Status) (s : State) :
    s.endSlot k st = { s with
      slots := s.slots.set k (endedSlot s.slots[k] st)
      notice := { s.notice with status := s.notice.status ||| 1#15 <<< k.val } } :=
  rfl

theorem State.wait_eq (k : SlotNo) (ws : List ResultWord) (s : State) :
    s.wait k ws = { s with slots := s.slots.set k { s.slots[k] with
      state := .waiting, result := writeResult ws s.slots[k].result } } :=
  rfl

theorem State.finish_eq (k : SlotNo) (ws : List ResultWord) (s : State) :
    s.finish k ws = { s with
      slots := s.slots.set k { endedSlot s.slots[k] .ok with result := writeResult ws s.slots[k].result }
      notice := { s.notice with status := s.notice.status ||| 1#15 <<< k.val } } := by
  simp [State.finish, State.endSlot_eq, State.writeResults, State.setSlot, endedSlot]

theorem State.collide_eq (k : SlotNo) (s : State) :
    s.collide k = { s with
      slots := s.slots.set k { s.slots[k] with collided := true }
      notice := { s.notice with status := s.notice.status ||| 0x2000#15 } } :=
  rfl

theorem State.report_eq (w : Option SlotNo) (st : Status) (s : State) :
    s.report w st = { s with
      slots := slotsReported s.slots w st
      notice := { s.notice with status := s.notice.status ||| reportCause w } } := by
  cases w with
  | none => simp [State.report, slotsReported, reportCause]
  | some k => rfl

/-! ### Grants -/

theorem seqAfter_eq (q : Seq) : nextSeq q = seqAfter q := rfl

theorem Record.freed_eq (r : Record) : r.freed = freedRecord r := rfl

theorem State.setGrant_eq (i : GrantIdx) (g : Grant) (s : State) :
    s.setGrant i g = { s with grants := s.grants.set i { s.grants[i] with grant := some g } } :=
  rfl

theorem State.freeGrant_eq {i : GrantIdx} {g : Grant} {s : State} (h : s.grants[i].grant = some g) :
    s.freeGrant i = { s with
      grants := s.grants.set i (freedRecord s.grants[i])
      slots := slotsReported s.slots g.waiting .ok
      notice := { s.notice with status := s.notice.status ||| reportCause g.waiting } } := by
  simp only [State.freeGrant, h, State.report_eq]
  rfl

theorem previous_eq (g : Grant) : g.phase.prev = previous g := by
  unfold Phase.prev previous
  cases g.phase <;> rfl

theorem noTraffic_eq (g : Grant) : g.idleTraffic = noTraffic g := by
  unfold Grant.idleTraffic noTraffic
  cases g.phase.prev <;> simp

theorem Lease.used_eq (l : Lease) : l.used = leaseUsed l := by
  cases l with
  | untimed => rfl
  | timed k p r => cases k <;> rfl

theorem hostOf_eq (g : Grant) (a : LocalAddr) : g.translate a = hostOf g a := rfl

/-- What the fall of a count does (R30, R31): the record and the reported slot of `fallOutcome`, and nothing else. -/
theorem State.fall_eq (i : GrantIdx) (n : GenNo) (s : State) :
    s.fall i n = { s with
      grants := s.grants.set i (fallOutcome s.grants[i] n).1
      slots := slotsReported s.slots (fallOutcome s.grants[i] n).2 .ok
      notice := { s.notice with status := s.notice.status ||| reportCause (fallOutcome s.grants[i] n).2 } } := by
  have same : ∀ r : Record, r = s.grants[i] → s = { s with
      grants := s.grants.set i r
      slots := slotsReported s.slots none .ok
      notice := { s.notice with status := s.notice.status ||| reportCause none } } := by
    rintro r rfl
    simp [slotsReported, reportCause, -Fin.getElem_fin, vector_set_same]
  unfold State.fall fallOutcome
  cases hr : s.grants[i].grant with
  | none => exact same _ rfl
  | some g =>
    by_cases hn : g.cur.number = n
    · subst hn
      simp only [if_true]
      unfold State.fallCurrent
      cases hp : g.phase with
      | opened => simp [Phase.isClosing, State.setGrant_eq, slotsReported, reportCause]
      | draining p => simp [Phase.isClosing, State.setGrant_eq, slotsReported, reportCause]
      | closing c p =>
        cases p with
        | some p => simp [Phase.isClosing, Phase.prev, State.setGrant_eq, slotsReported, reportCause]
        | none =>
          by_cases h0 : g.cur.count - 1 = 0
          · simp only [Phase.isClosing, Phase.prev, h0, and_self, if_true]
            rw [State.freeGrant_eq (g := { g with cur := { g.cur with count := g.cur.count - 1 } })
              (by simp [State.setGrant_eq, h0, hp])]
            simp [State.setGrant_eq, freedRecord]
          · simp [Phase.isClosing, h0, State.setGrant_eq, slotsReported, reportCause]
    · simp only [hn, if_false]
      cases hp : g.phase with
      | opened => simpa [Phase.prev] using same _ rfl
      | draining p =>
        by_cases hpn : p.number = n
        · subst hpn
          simp only [Phase.prev, if_true, ne_eq, not_true, if_false]
          unfold State.fallPrevious
          simp only [hp]
          by_cases h0 : p.count - 1 = 0
          · simp [h0, State.report_eq, State.setGrant_eq]
          · simp [h0, State.setGrant_eq, slotsReported, reportCause]
        · simpa [Phase.prev, hpn] using same _ rfl
      | closing c p =>
        cases p with
        | none => simpa [Phase.prev] using same _ rfl
        | some p =>
          by_cases hpn : p.number = n
          · subst hpn
            simp only [Phase.prev, if_true, ne_eq, not_true, if_false]
            unfold State.fallPrevious
            simp only [hp]
            by_cases h0 : p.count - 1 = 0
            · simp only [h0, if_true]
              by_cases hc : g.cur.count = 0
              · simp only [hc, if_true]
                rw [State.freeGrant_eq (g := { g with phase := .closing c none }) (by simp [State.setGrant_eq])]
                simp [State.setGrant_eq, freedRecord]
              · simp [hc, State.setGrant_eq, slotsReported, reportCause]
            · simp [h0, State.setGrant_eq, slotsReported, reportCause]
          · simpa [Phase.prev, hpn] using same _ rfl

/-! ### Ports -/

theorem Port.captured_eq (q : Port) (f : FaultRecord) : q.captured f = faulted q f := by
  unfold Port.captured faulted
  cases h : q.fault <;> simp [Config.maxSmallCount]

/-- What the capture of a fault does (R76, R78, R79). -/
theorem State.capture_eq (p : PortNo) (f : FaultRecord) (s : State) :
    s.capture p f = { s with
      ports := s.ports.set p (faulted s.ports[p] f)
      notice := { s.notice with status := s.notice.status ||| faultCause s.ports[p] p } } := by
  unfold State.capture faultCause
  rw [Port.captured_eq]
  cases h : s.ports[p].fault with
  | none => simp [State.setPort, State.setCauses, causeReqFault, single]
  | some g => simp [State.setPort]

theorem refusalAnswer_eq (a : Access) (r : Result) : a.refusalAnswer r = Safety.refusalAnswer a r := by
  cases a <;> rfl

/-- What the refusal of a head access does (R70, R71, R75). -/
theorem State.refuseHead_eq (p : PortNo) (a : Access) (r : Result) (h : Option Handle) (s : State) :
    s.refuseHead p a r h = { s with
      ports := s.ports.set p (portRefusing s.ports[p] a r h)
      answers := s.answers ++ [(p, Safety.refusalAnswer a r)]
      notice := { s.notice with status := s.notice.status ||| refusalCause s.ports[p] p r } } := by
  unfold State.refuseHead portRefusing refusalCause
  rw [refusalAnswer_eq]
  by_cases hr : r = .halted
  · simp [hr, State.setPort, State.answer]
  · simp only [hr, if_false, State.capture_eq]
    simp [State.setPort, State.answer, refusalRecord, faultCause]

/-! ### Departures -/

theorem State.tagLeavesSlot_eq (t : TagNo) (s : State) (k : SlotNo) :
    s.tagLeavesSlot t k = { s with
      slots := s.slots.set k (slotAfterTag t s.slots[k])
      notice := { s.notice with
        status := s.notice.status ||| if emptiedByTag t s.slots[k] then 1#15 <<< k.val else 0#15 } } := by
  unfold State.tagLeavesSlot slotAfterTag emptiedByTag
  cases h : s.slots[k].snapshot with
  | none => simp [-Fin.getElem_fin, vector_set_same]
  | some sn =>
    cases hm : sn.tags.getLsbD t.val with
    | false => simp only [hm]; simp [-Fin.getElem_fin, vector_set_same]
    | true =>
      simp only [hm]
      by_cases he : sn.tags &&& ~~~ (1#32 <<< t.val) = 0#32 ∧ sn.entries = 0#16
      · simp [he, State.keepSnapshot, Snapshot.isEmpty, single, slotAfterDeparture, State.endSlot_eq]
      · have he' : (sn.tags &&& ~~~ (1#32 <<< t.val) = 0#32) → ¬ sn.entries = 0#16 := by simpa using he
        simp [State.keepSnapshot, Snapshot.isEmpty, single, slotAfterDeparture, State.setSlot, he]

theorem State.entryLeavesSlot_eq (s : State) (k : SlotNo) :
    s.entryLeavesSlot k = { s with
      slots := s.slots.set k (slotAfterEntry s.slots[k])
      notice := { s.notice with
        status := s.notice.status ||| if emptiedByEntry s.slots[k] then 1#15 <<< k.val else 0#15 } } := by
  unfold State.entryLeavesSlot slotAfterEntry emptiedByEntry
  cases h : s.slots[k].snapshot with
  | none => simp [-Fin.getElem_fin, vector_set_same]
  | some sn =>
    cases hm : sn.entries.getLsbD 0 with
    | false => simp only [hm]; simp [State.setSlot]
    | true =>
      simp only [hm]
      by_cases he : sn.tags = 0#32 ∧ sn.entries >>> 1 = 0#16
      · simp [he, State.keepSnapshot, Snapshot.isEmpty, slotAfterDeparture, State.endSlot_eq]
      · simp [State.keepSnapshot, Snapshot.isEmpty, slotAfterDeparture, State.setSlot, he]

theorem finRange_four : List.finRange 4 = [0, 1, 2, 3] := by decide

theorem doneCauses_eq (ends : SlotNo → Bool) :
    doneCauses ends = (if ends 0 then 1#15 else 0#15) ||| (if ends 1 then 2#15 else 0#15)
      ||| (if ends 2 then 4#15 else 0#15) ||| (if ends 3 then 8#15 else 0#15) := by
  have h : ∀ a b c d : Bool, doneCauses (fun k => #v[a, b, c, d][k]) = (if a then 1#15 else 0#15)
      ||| (if b then 2#15 else 0#15) ||| (if c then 4#15 else 0#15) ||| (if d then 8#15 else 0#15) := by decide
  have he : ends = fun k => #v[ends 0, ends 1, ends 2, ends 3][k] := by
    funext k
    fin_cases k <;> rfl
  rw [he, h]
  rfl

/-- A retired tag leaves every snapshot (R126, R127). -/
theorem State.tagLeaves_eq (t : TagNo) (s : State) :
    s.tagLeaves t = { s with
      slots := Vector.ofFn fun k : SlotNo => slotAfterTag t s.slots[k]
      notice := { s.notice with
        status := s.notice.status ||| doneCauses fun k => emptiedByTag t s.slots[k] } } := by
  unfold State.tagLeaves
  rw [finRange_four, doneCauses_eq]
  simp only [List.foldl, State.tagLeavesSlot_eq]
  apply State.eq_of_fields <;> try rfl
  · ext k hk
    have : k = 0 ∨ k = 1 ∨ k = 2 ∨ k = 3 := by omega
    rcases this with rfl | rfl | rfl | rfl <;> simp
  · simp [BitVec.or_assoc]

/-- The head entry leaves every snapshot (R126, R127). -/
theorem State.entryLeaves_eq (s : State) :
    s.entryLeaves = { s with
      slots := Vector.ofFn fun k : SlotNo => slotAfterEntry s.slots[k]
      notice := { s.notice with
        status := s.notice.status ||| doneCauses fun k => emptiedByEntry s.slots[k] } } := by
  unfold State.entryLeaves
  rw [finRange_four, doneCauses_eq]
  simp only [List.foldl, State.entryLeavesSlot_eq]
  apply State.eq_of_fields <;> try rfl
  · ext k hk
    have : k = 0 ∨ k = 1 ∨ k = 2 ∨ k = 3 := by omega
    rcases this with rfl | rfl | rfl | rfl <;> simp
  · simp [BitVec.or_assoc]

/-- The slots after a report and a departure together. -/
theorem slotsAfterDeparture_eq (s : State) (w : Option SlotNo) (after : Slot → Slot)
    (h : ∀ sl, after (endedSlot sl .ok) = endedSlot sl .ok) :
    (Vector.ofFn fun k : SlotNo => after (slotsReported s.slots w .ok)[k]) = slotsAfterDeparture s w after := by
  unfold slotsAfterDeparture slotsReported
  cases w with
  | none => simp
  | some j =>
    ext k hk
    by_cases hj : j.val = k
    · subst hj
      simp [h]
    · have : ¬ j = ⟨k, hk⟩ := fun e => hj (by rw [e])
      simp [hj, this]

/-- The causes of a report and a departure together. -/
theorem departureCauses_eq (s : State) (w : Option SlotNo) (emptied : Slot → Bool)
    (h : ∀ sl, emptied (endedSlot sl .ok) = false) :
    (reportCause w ||| doneCauses fun k => emptied (slotsReported s.slots w .ok)[k]) = departureCauses s w emptied := by
  unfold departureCauses
  rw [doneCauses_eq, doneCauses_eq]
  cases w with
  | none =>
    simp [reportCause, slotsReported]
    rfl
  | some j =>
    unfold reportCause slotsReported
    have hb : ∀ (a b c d : Bool) (j : SlotNo),
        (1#15 <<< j.val ||| ((if (if j = 0 then false else a) then 1#15 else 0#15)
          ||| (if (if j = 1 then false else b) then 2#15 else 0#15)
          ||| (if (if j = 2 then false else c) then 4#15 else 0#15)
          ||| (if (if j = 3 then false else d) then 8#15 else 0#15)))
        = (if (some j == some (0 : SlotNo)) || a then 1#15 else 0#15)
          ||| (if (some j == some (1 : SlotNo)) || b then 2#15 else 0#15)
          ||| (if (some j == some (2 : SlotNo)) || c then 4#15 else 0#15)
          ||| (if (some j == some (3 : SlotNo)) || d then 8#15 else 0#15) := by decide
    have hk : ∀ k : SlotNo, emptied (s.slots.set j (endedSlot s.slots[j] .ok))[k]
        = if j = k then false else emptied s.slots[k] := by
      intro k
      by_cases hj : j = k
      · subst hj
        simp [h]
      · have : ¬ j.val = k.val := fun e => hj (Fin.ext e)
        simp [this, hj]
    simp only [hk]
    exact hb _ _ _ _ j

theorem slotAfterTag_ended (t : TagNo) (sl : Slot) : slotAfterTag t (endedSlot sl .ok) = endedSlot sl .ok := rfl

theorem slotAfterEntry_ended (sl : Slot) : slotAfterEntry (endedSlot sl .ok) = endedSlot sl .ok := rfl

/-- The fall of a count and the departure of the head entry, together (R118). -/
theorem State.fall_entryLeaves_eq (i : GrantIdx) (n : GenNo) (s : State) :
    (s.fall i n).entryLeaves = { s with
      grants := s.grants.set i (fallOutcome s.grants[i] n).1
      slots := slotsAfterDeparture s (fallOutcome s.grants[i] n).2 slotAfterEntry
      notice := { s.notice with
        status := s.notice.status ||| departureCauses s (fallOutcome s.grants[i] n).2 emptiedByEntry } } := by
  rw [State.entryLeaves_eq, State.fall_eq, ← slotsAfterDeparture_eq _ _ _ slotAfterEntry_ended,
    ← departureCauses_eq _ _ emptiedByEntry (fun _ => rfl)]
  simp [BitVec.or_assoc]

/-- The fall of a count and the departure of a tag, together (R103). -/
theorem State.fall_tagLeaves_eq (t : TagNo) (i : GrantIdx) (n : GenNo) (s : State) :
    (s.fall i n).tagLeaves t = { s with
      grants := s.grants.set i (fallOutcome s.grants[i] n).1
      slots := slotsAfterDeparture s (fallOutcome s.grants[i] n).2 (slotAfterTag t)
      notice := { s.notice with
        status := s.notice.status ||| departureCauses s (fallOutcome s.grants[i] n).2 (emptiedByTag t) } } := by
  rw [State.tagLeaves_eq, State.fall_eq, ← slotsAfterDeparture_eq _ _ _ (slotAfterTag_ended t),
    ← departureCauses_eq _ _ (emptiedByTag t) (fun _ => rfl)]
  simp [BitVec.or_assoc]

/-! ### Retirement -/

theorem readRecord_eq {s : State} {r : ReadInfo} {res : Result} {g : Grant} {base : HostAddr}
    (hg : s.grants[r.index].grant = some g) (hb : liveBase g r.gen base) :
    s.readRecord r res = readFault r res g s.grants[r.index].seq base := by
  have : g.hostBaseOf r.gen = base := by
    unfold Grant.hostBaseOf
    obtain ⟨hn, rfl⟩ | ⟨hn, p, hp, -, rfl⟩ := hb
    · simp [hn]
    · simp [hn, hp]
  unfold State.readRecord readFault Grant.localAddrOf
  simp only [hg, this]

/-- The port's share of a retirement with OK (R73, R103). -/
theorem State.endRead_ok (r : ReadInfo) (s : State) :
    s.endRead r .ok = { s with
      ports := if r.detached then s.ports else s.ports.set r.requester (portAfterRead s.ports[r.requester] r)
      answers := s.answers ++ if r.detached then [] else [(r.requester, .readEnd r.label .ok false)] } := by
  unfold State.endRead
  cases h : r.detached <;> simp [State.setPort, State.answer, portAfterRead, single]

/-- The port's share of a retirement with HOSTERR or TIMEOUT (R75, R103). -/
theorem State.endRead_fault {r : ReadInfo} {res : Result} (hres : res ≠ .ok) (s : State) :
    s.endRead r res = { s with
      ports := if r.detached then s.ports
        else s.ports.set r.requester (faulted (portAfterRead s.ports[r.requester] r) (s.readRecord r res))
      answers := s.answers ++ if r.detached then [] else [(r.requester, .readEnd r.label res false)]
      notice := { s.notice with
        status := s.notice.status
          ||| if r.detached then 0#15 else faultCause s.ports[r.requester] r.requester } } := by
  unfold State.endRead
  cases h : r.detached
  · simp only [Bool.false_eq_true, if_false, hres, State.capture_eq]
    simp [State.setPort, State.answer, portAfterRead, single, faultCause]
  · simp

/-- Withdrawal of a tag's memory read (R170). -/
theorem State.withdraw_eq (t : TagNo) (s : State) :
    s.withdraw t = { s with link := { s.link with
      outbound := s.link.outbound.filter fun m => readTag m != some t } } := by
  have h : (s.link.outbound.filter fun m => match m with | .memRead t' _ _ => t' != t | _ => true)
      = s.link.outbound.filter fun m => readTag m != some t := by
    apply List.filter_congr
    rintro (⟨t', _, _⟩ | _ | _) _
    · rw [Bool.eq_iff_iff]
      simp [readTag]
    · rfl
    · rfl
  exact congrArg (fun o => ({ s with link := { s.link with outbound := o } } : State)) h

/-- Retirement with OK, after the beats that the same change gave (R101, R103). -/
theorem State.retire_ok (t : TagNo) (r : ReadInfo) (next : TagEntry) (s : State) :
    s.retire t r .ok next = { retiredState s t r .ok next (portAfterRead s.ports[r.requester] r) [] with
      notice := { s.notice with status := s.notice.status ||| retirementCauses s t r } } := by
  unfold State.retire
  rw [State.withdraw_eq, State.fall_tagLeaves_eq, State.endRead_ok]
  simp [State.setTag, retiredState, retirementCauses, departureCauses, slotsAfterDeparture]

/-- Retirement with HOSTERR or TIMEOUT (R102, R103, R105). -/
theorem State.retire_fault {r : ReadInfo} {res : Result} (hres : res ≠ .ok) {s : State} {g : Grant} {base : HostAddr}
    (hg : s.grants[r.index].grant = some g) (hb : liveBase g r.gen base) (t : TagNo) (next : TagEntry) :
    s.retire t r res next
      = { retiredState s t r res next
            (faulted (portAfterRead s.ports[r.requester] r) (readFault r res g s.grants[r.index].seq base)) [] with
          notice := { s.notice with status := s.notice.status ||| (retirementCauses s t r
            ||| if r.detached then 0#15 else faultCause s.ports[r.requester] r.requester) } } := by
  unfold State.retire
  rw [State.withdraw_eq, State.fall_tagLeaves_eq, State.endRead_fault hres, readRecord_eq hg hb]
  simp only [State.setTag, retiredState, retirementCauses, departureCauses, slotsAfterDeparture]
  apply State.eq_of_fields <;> try rfl
  · simp only [BitVec.or_assoc]
    rw [BitVec.or_comm (if r.detached then _ else _)]
  · simp

/-! ### The lookup -/

theorem Grant.covers_eq (g : Grant) (a : LocalAddr) : g.covers a = inRange g a := by
  simp [Grant.covers, inRange]

theorem kindCode_eq (k : AccessKind) : kindCode k = kindBit k := by
  cases k <;> rfl

/-- A grant found alone is the one that the search gives (R15). -/
theorem State.grantAt_of_found {s : State} {a : LocalAddr} {i : GrantIdx} {g : Grant} (h : foundAt s a i g) :
    s.grantAt a = some (i, g) := by
  obtain ⟨hg, hu⟩ := h
  have hin : inRange g a = true := by
    have := hu i
    rw [hg, Option.any_some] at this
    simpa using this
  cases hs : s.grantAt a with
  | none =>
    unfold State.grantAt at hs
    rw [List.findSome?_eq_none_iff] at hs
    have := hs i (List.mem_finRange i)
    simp only [hg, Grant.covers_eq, hin, if_true, reduceCtorEq] at this
  | some x =>
    obtain ⟨j, -, hj⟩ := List.exists_of_findSome?_eq_some hs
    cases hgj : s.grants[j].grant with
    | none => simp only [hgj, reduceCtorEq] at hj
    | some h =>
      simp only [hgj, Grant.covers_eq] at hj
      split at hj
      · rename_i hc
        have := hu j
        rw [hgj, Option.any_some, hc] at this
        have hji : j = i := by simpa using this.symm
        subst hji
        rw [hg] at hgj
        cases hgj
        exact hj.symm
      · cases hj

/-- No grant's range contains the address: the search finds none (R15). -/
theorem State.grantAt_none {s : State} {a : LocalAddr}
    (h : ∀ j : GrantIdx, (s.grants[j].grant.any fun g => inRange g a) = false) : s.grantAt a = none := by
  unfold State.grantAt
  rw [List.findSome?_eq_none_iff]
  intro j _
  have := h j
  cases hj : s.grants[j].grant with
  | none => rfl
  | some g =>
    rw [hj, Option.any_some] at this
    simp [Grant.covers_eq, this]

/-- Checks 3 to 5 as they refuse (R12). -/
theorem State.lookupGrant_refuses {s : State} {p : PortNo} {k : AccessKind} {a : LocalAddr} {r : Result}
    {h : Option Handle} (hr : grantRefuses s p k a r h) : s.lookupGrant p k a = .refuse r h := by
  unfold State.lookupGrant
  obtain ⟨hn, rfl, rfl⟩ | ⟨i, g, hf, rfl, ⟨hc, rfl⟩ | ⟨hc, ha, rfl⟩⟩ := hr
  · simp only [State.grantAt_none hn]
  · simp only [State.grantAt_of_found hf, hc, if_true]
  · simp only [State.grantAt_of_found hf, hc, Bool.false_eq_true, if_false]
    unfold allowed at ha
    rw [kindCode_eq, ha]
    rfl

/-- Checks 3 to 5 passed, and the translation (R12, R18). -/
theorem State.lookupGrant_passes {s : State} {p : PortNo} {k : AccessKind} {a : LocalAddr} {i : GrantIdx} {g : Grant}
    (hf : foundAt s a i g) (hc : g.phase.isClosing = false) (ha : allowed g p k = true) :
    s.lookupGrant p k a = .pass i g.cur.number (hostOf g a) := by
  unfold State.lookupGrant
  simp only [State.grantAt_of_found hf, hc, Bool.false_eq_true, if_false]
  unfold allowed at ha
  rw [kindCode_eq, ha]
  rfl

theorem Port.malformed_iff (q : Port) (a : Access) : q.malformed a = true ↔ malformedAccess q a := by
  unfold Port.malformed malformedAccess crossesPage
  simp only [Bool.or_eq_true, beq_iff_eq, bne_iff_ne, decide_eq_true_eq, or_assoc]
  cases a <;> rfl

/-- A lookup that the five checks refuse (R12). -/
theorem State.lookupAccess_refuses {s : State} {p : PortNo} {a : Access} {r : Result} {h : Option Handle}
    (hr : refuses s p a r h) : s.lookupAccess p a = .refuse r h := by
  unfold State.lookupAccess
  obtain ⟨h1, rfl, rfl⟩ | ⟨h1, h2, rfl, rfl⟩ | ⟨h1, h2, h3⟩ := hr
  · simp only [h1, if_true]
  · simp only [h1, reduceCtorEq, if_false, (Port.malformed_iff _ _).mpr h2, if_true]
  · have : s.ports[p].malformed a = false := by
      rw [← Bool.not_eq_true, Port.malformed_iff]
      exact h2
    simp only [h1, reduceCtorEq, if_false, this, Bool.false_eq_true]
    exact State.lookupGrant_refuses h3

/-- A lookup that the five checks admit (R12, R18). -/
theorem State.lookupAccess_admits {s : State} {p : PortNo} {a : Access} {i : GrantIdx} {g : Grant}
    (ha : admits s p a i g) : s.lookupAccess p a = .pass i g.cur.number (hostOf g a.addr) := by
  obtain ⟨h1, h2, hf, hc, hal⟩ := ha
  have : s.ports[p].malformed a = false := by
    rw [← Bool.not_eq_true, Port.malformed_iff]
    exact h2
  unfold State.lookupAccess
  simp only [h1, reduceCtorEq, if_false, this, Bool.false_eq_true]
  exact State.lookupGrant_passes hf hc hal

theorem wireAccess_eq (w : Presented) : Presented.access w = wireAccess w := by
  have : lengthField w.length = if w.length.toNat < 512 then w.length.toNat else 512 := by
    generalize w.length = x
    revert x
    decide
  cases w with
  | mk kind =>
    cases kind <;> simp only [Presented.access, wireAccess, this]

end Sys2Proof.Machine
end

