-- ==== Sys2Proof/Laws/Arguments.lean ====
section
/-! SUPPORT. The argument and result areas of a slot: which word each field reads, and the words of results as sums of their
fields. -/

namespace Sys2Proof.Machine

open Sys2Proof.Safety

/-- The argument word at an offset (R177, R179). -/
theorem Slot.arg_eq (sl : Slot) (n : Fin 28) : sl.arg (0x10 + 4 * n.val) = sl.args[n] := by
  unfold Slot.arg
  have : (0x10 + 4 * n.val - 0x10) / 4 = n.val := by omega
  rw [this]
  simp

theorem Slot.handle_eq (sl : Slot) :
    sl.handle = { index := (sl.args[0].extractLsb' 8 6).toFin, seq := sl.args[0].extractLsb' 0 8 } := rfl

theorem Slot.index_eq (sl : Slot) : sl.index = (sl.args[0].extractLsb' 8 6).toFin := rfl
theorem Slot.presence_eq (sl : Slot) : sl.presence = sl.args[1] := rfl
theorem Slot.mode_eq (sl : Slot) : sl.mode = sl.args[1].extractLsb' 0 8 := rfl
theorem Slot.localAddr_eq (sl : Slot) : sl.localAddr = sl.args[2].extractLsb' 0 30 := rfl
theorem Slot.length_eq (sl : Slot) : sl.length = sl.args[3].toNat := rfl
theorem Slot.hostBase_eq (sl : Slot) : sl.hostBase = sl.args[5] ++ sl.args[4] := rfl
theorem Slot.rightsField_eq (sl : Slot) : sl.rightsField = sl.args[6].extractLsb' 0 8 := rfl
theorem Slot.clients_eq (sl : Slot) : sl.clients = sl.args[6].extractLsb' 8 8 := rfl
theorem Slot.leaseKind_eq (sl : Slot) : sl.leaseKind = sl.args[7].extractLsb' 0 8 := rfl
theorem Slot.period_eq (sl : Slot) : sl.period = sl.args[8].extractLsb' 0 16 := rfl
theorem Slot.hostTag_eq (sl : Slot) : sl.hostTag = sl.args[9] := rfl
theorem Slot.requester_eq (sl : Slot) : sl.requester = requesterOf sl := rfl
theorem Slot.requesters_eq (sl : Slot) : sl.requesters = sl.args[12].extractLsb' 0 8 := rfl
theorem Slot.readLimit_eq (sl : Slot) : sl.readLimit = (sl.args[14].extractLsb' 0 8).toNat := rfl
theorem Slot.timeout_eq (sl : Slot) : sl.timeout = (sl.args[15].extractLsb' 0 8).toNat := rfl
theorem Slot.threshold_eq (sl : Slot) : sl.threshold = (sl.args[16].extractLsb' 0 16).toNat := rfl
theorem Slot.holdoff_eq (sl : Slot) : sl.holdoff = (sl.args[17].extractLsb' 0 16).toNat := rfl
theorem Slot.names_eq (sl : Slot) (n : Nat) : names sl.presence n = present sl n := rfl

/-- The bits of a word from `n` up are 0 when its number is below 2^n. -/
theorem shiftRight_eq_zero {w : Nat} (x : BitVec w) (n : Nat) : x >>> n = 0#w ↔ x.toNat < 2 ^ n := by
  rw [← BitVec.toNat_inj, BitVec.toNat_ushiftRight, Nat.shiftRight_eq_div_pow]
  simp [Nat.div_eq_zero_iff]

/-- A presence set is faultless when it names some of its fields and nothing else (R37, R82, R147). -/
theorem presenceFault_iff (sl : Slot) (n : Nat) : presenceFault sl.presence n = false ↔ presenceGood sl n := by
  unfold presenceFault presenceGood
  rw [Slot.presence_eq]
  simp only [Bool.or_eq_false_iff, beq_eq_false_iff_ne, bne_eq_false_iff_eq, shiftRight_eq_zero]

theorem namesMapping_iff (sl : Slot) : namesMapping sl.presence = true ↔ mapsAnew sl := by
  unfold namesMapping mapsAnew names
  rw [Slot.presence_eq]
  generalize sl.args[1] = x
  have h : ∀ y : BitVec 4, (y.getLsbD 0 || y.getLsbD 1 || y.getLsbD 2 || y.getLsbD 3) = true ↔ y ≠ 0#4 := by decide
  rw [← h (x.extractLsb' 0 4)]
  simp

/-- The lease that a kind and a period give (R22, R24). -/
theorem leaseOf_iff (sl : Slot) (l : Lease) : leaseOf sl.leaseKind sl.period = some l ↔ suppliedLease sl l := by
  unfold suppliedLease
  rw [Slot.leaseKind_eq, Slot.period_eq]
  generalize sl.args[7].extractLsb' 0 8 = k
  generalize sl.args[8].extractLsb' 0 16 = p
  have hm : Config.unitsPerMs = 100 := rfl
  unfold leaseOf
  rw [hm]
  by_cases h0 : k = 0#8
  · subst h0
    simp only [if_true, Option.some.injEq, true_and, false_and, or_false,
      show ¬ (0#8 = 1#8) by decide, show ¬ (0#8 = 2#8) by decide]
    exact eq_comm
  · by_cases hp : p = 0#16
    · simp [h0, hp]
    · by_cases h1 : k = 1#8
      · subst h1
        simp [hp]
        exact eq_comm
      · by_cases h2 : k = 2#8
        · subst h2
          simp [hp]
          exact eq_comm
        · simp [h0, h1, h2, hp]

/-- The rights of a rights field (R22, R179). -/
theorem rightsOf_iff (w : Word) (r : Rights) : rightsOf (w.extractLsb' 0 8) = some r ↔
    w.extractLsb' 2 6 = 0#6 ∧ w.extractLsb' 0 2 ≠ 0#2 ∧ r = w.extractLsb' 0 2 := by
  have h : ∀ (f : BitVec 8) (r : Rights), rightsOf f = some r ↔
      f.extractLsb' 2 6 = 0#6 ∧ f.extractLsb' 0 2 ≠ 0#2 ∧ r = f.extractLsb' 0 2 := by decide
  rw [h]
  have h1 : (w.extractLsb' 0 8).extractLsb' 2 6 = w.extractLsb' 2 6 := by ext i hi; simp
  have h2 : (w.extractLsb' 0 8).extractLsb' 0 2 = w.extractLsb' 0 2 := by ext i hi; simp
  rw [h1, h2]

/-! ### Words -/

/-- A field of a word, as a number. -/
theorem put_toNat {lo width : Nat} (v : Nat) (h : lo + width ≤ 32) :
    (put lo width v).toNat = v % 2 ^ width * 2 ^ lo := by
  unfold put
  have h1 : v % 2 ^ width < 2 ^ width := Nat.mod_lt _ (by positivity)
  have h2 : v % 2 ^ width * 2 ^ lo < 2 ^ 32 := by
    calc v % 2 ^ width * 2 ^ lo < 2 ^ width * 2 ^ lo := by gcongr
      _ = 2 ^ (lo + width) := by ring
      _ ≤ 2 ^ 32 := Nat.pow_le_pow_right (by norm_num) h
  have h3 : v % 2 ^ width < 2 ^ 32 := lt_of_lt_of_le h1 (Nat.pow_le_pow_right (by norm_num) (by omega))
  rw [BitVec.toNat_shiftLeft, BitVec.toNat_setWidth, BitVec.toNat_ofNat, Nat.mod_eq_of_lt h3, Nat.shiftLeft_eq,
    Nat.mod_eq_of_lt h2]

/-- Two parts of a word that share no bit add up. -/
theorem or_toNat {x y : Word} {n : Nat} (hx : x.toNat < 2 ^ n) (hy : 2 ^ n ∣ y.toNat) :
    (x ||| y).toNat = x.toNat + y.toNat := by
  obtain ⟨c, hc⟩ := hy
  rw [BitVec.toNat_or, hc, Nat.or_comm, ← Nat.mul_comm c, ← Nat.shiftLeft_eq, ← Nat.shiftLeft_add_eq_or_of_lt hx]
  omega

/-- A handle's word has the sequence in bits 7:0 and the index in bits 13:8 (R178). -/
theorem Handle.word_eq (h : Handle) : h.word = handleWord h.index h.seq := by
  obtain ⟨i, q⟩ := h
  unfold Handle.word handleWord
  apply BitVec.eq_of_toNat_eq
  have hi := i.isLt
  have hq := q.isLt
  have h1 : (put 0 8 q.toNat).toNat = q.toNat := by
    rw [put_toNat _ (by norm_num)]
    omega
  have h2 : (put 8 6 i.val).toNat = i.val * 2 ^ 8 := by
    rw [put_toNat _ (by norm_num)]
    omega
  rw [or_toNat (n := 8) (by rw [h1]; exact hq) (by rw [h2]; exact Nat.dvd_mul_left _ _), h1, h2, BitVec.toNat_append,
    ← Nat.shiftLeft_add_eq_or_of_lt hq, Nat.shiftLeft_eq, BitVec.toNat_append]
  simp
  omega

end Sys2Proof.Machine
end

