-- ==== Sys2Proof/Laws/Searches.lean ====
section
/-! SUPPORT. What the searches of the part find: the arbiters, the lowest FREE tag and index, overlap, the grant that a
handle names, and what LRST does to all ports. -/

namespace Sys2Proof.Machine

open Sys2Proof.Safety

/-! ### The lowest of a range -/

/-- A search of all indices in order finds the least one that satisfies a condition. -/
theorem find_finRange {n : Nat} {q : Fin n → Bool} {i : Fin n} (hi : q i = true) (h : ∀ j, j < i → q j = false) :
    (List.finRange n).find? q = some i := by
  rw [List.find?_eq_some_iff_getElem]
  refine ⟨hi, i.val, by simp, by simp, fun j hj => ?_⟩
  simp [h ⟨j, by omega⟩ hj]

/-! ### Arbiters (R94, R96, R115, R116) -/

theorem State.readEligible_eq (s : State) (p : PortNo) : s.readEligible p = mayRead s p := by
  have h2 : (s.queue.all fun e => e.requester != p) = !(s.queue.any fun e => e.requester == p) := by
    rw [List.not_any_eq_all_not]
    rfl
  have h3 : s.lowestFreeTag.isSome = s.tags.toList.any (· == .free) := by
    unfold State.lowestFreeTag
    rw [Bool.eq_iff_iff, List.find?_isSome, List.any_eq_true]
    constructor
    · rintro ⟨t, -, h⟩
      exact ⟨s.tags[t], by simp, h⟩
    · rintro ⟨e, he, h⟩
      obtain ⟨t, ht, rfl⟩ := List.mem_iff_getElem.mp he
      exact ⟨⟨t, by simpa using ht⟩, List.mem_finRange _, by simpa using h⟩
  unfold State.readEligible mayRead
  rw [h2, h3]
  rcases s.ports[p].head with _ | ⟨_, _, _⟩ | ⟨_, _, _⟩ <;> rfl

theorem State.writeEligible_eq (s : State) (p : PortNo) : s.writeEligible p = mayWrite s p := by
  unfold State.writeEligible mayWrite
  rcases s.ports[p].head with _ | ⟨_, _, _⟩ | ⟨_, _, _⟩ <;> rfl

/-- The search from the port after the last-granted one finds the first eligible port. -/
theorem find_portsAfter {last p : PortNo} {e : PortNo → Bool} (h : firstAfter last p e) :
    (portsAfter last).find? e = some p := by
  obtain ⟨he, hd⟩ := h
  have hp : last + 1 + (p - (last + 1)) = p := add_sub_cancel _ _
  unfold portsAfter
  rw [List.find?_map, Option.map_eq_some_iff]
  exact ⟨p - (last + 1), find_finRange (by simpa [hp] using he) (fun j hj => hd j hj), hp⟩

theorem find_portsAfter_none {last : PortNo} {e : PortNo → Bool} (h : ∀ p, e p = false) :
    (portsAfter last).find? e = none := by
  simp [h]

/-- The tag that a read is issued into (R98). -/
theorem State.lowestFreeTag_eq {s : State} {n : TagNo} (h : lowestTag s n) : s.lowestFreeTag = some n := by
  unfold State.lowestFreeTag
  exact find_finRange (by simp [h.1]) (fun j hj => by simpa using h.2 j hj)

/-! ### Indices, ranges and handles -/

/-- The index at which an OPEN creates its grant (R24). -/
theorem State.lowestFree_eq {s : State} {i : GrantIdx} (h : lowestIndex s i) : s.lowestFree = some i := by
  unfold State.lowestFree
  exact find_finRange (by rw [h.1]; rfl) (fun j hj => by
    rw [Option.isNone_eq_false_iff, Option.isSome_iff_ne_none]
    exact h.2 j hj)

theorem State.lowestFree_none {s : State} (h : ∀ i : GrantIdx, s.grants[i].grant ≠ none) : s.lowestFree = none := by
  unfold State.lowestFree
  rw [List.find?_eq_none]
  intro i _
  simpa using h i

/-- The overlap test is the negation of disjointness (R10). -/
theorem State.overlaps_iff (s : State) (except : Option GrantIdx) (base len : Nat) :
    s.overlaps except base len = false ↔ clearOf s except base len := by
  unfold State.overlaps clearOf
  rw [List.any_eq_false]
  refine forall_congr' fun j => ?_
  cases hj : s.grants[j].grant with
  | none => simp
  | some g =>
    by_cases he : except = some j
    · simp [he]
    · simp [he, rangesOverlap]
      omega

/-- A handle that names a grant finds it (R8). -/
theorem State.byHandle_named {s : State} {sl : Slot} {i : GrantIdx} {g : Grant} (h : named s sl i g) :
    sl.handle = { index := i, seq := s.grants[i].seq } ∧ s.byHandle sl.handle = some g := by
  obtain ⟨hi, hg, hq, h0⟩ := h
  have hh : sl.handle = { index := i, seq := s.grants[i].seq } := by
    rw [Handle.mk.injEq]
    exact ⟨hi, hq⟩
  refine ⟨hh, ?_⟩
  unfold State.byHandle
  rw [hh]
  simp [-Fin.getElem_fin, h0, hg]

/-! ### Every requester cleaned (R87) -/

theorem State.cleanEvery_eq (s : State) : (List.finRange 8).foldl State.cleanRequester s = { s with
    ports := Vector.ofFn fun p : PortNo => cleanPort s.ports[p]
    tags := Vector.ofFn fun n : TagNo => letGo (fun _ => true) s.tags[n] } := by
  rw [show List.finRange 8 = [0, 1, 2, 3, 4, 5, 6, 7] by decide]
  simp only [List.foldl, State.cleanRequester]
  refine State.eq_of_fields rfl rfl ?_ rfl ?_ rfl rfl rfl rfl rfl rfl rfl rfl rfl rfl rfl
  · ext k hk
    have : k = 0 ∨ k = 1 ∨ k = 2 ∨ k = 3 ∨ k = 4 ∨ k = 5 ∨ k = 6 ∨ k = 7 := by omega
    have hc : ∀ q : Port, q.cleaned = cleanPort q := fun _ => rfl
    simp only [hc]
    rcases this with rfl | rfl | rfl | rfl | rfl | rfl | rfl | rfl <;> simp
  · ext k hk
    simp only [Vector.getElem_ofFn, Fin.getElem_fin]
    generalize s.tags[k] = e
    cases e with
    | free => rfl
    | parked => rfl
    | waiting r i u =>
      obtain ⟨p, l, d, ix, g, h, n, rc⟩ := r
      simp only [TagEntry.detachFor, letGo]
      fin_cases p <;> simp

end Sys2Proof.Machine
end

