-- ==== Sys2Proof/Laws/Allocator.lean ====
section
/-! SUPPORT. What one grant of the tag allocator does to the ports, and that the grants which come before a SET-REQUESTER come
to an end. -/

namespace Sys2Proof.Machine

open Sys2Proof.Safety

/-! ### One grant -/

/-- A lookup that passes marks a grant that is there (R12). -/
theorem State.lookupGrant_pass {s : State} {p : PortNo} {k : AccessKind} {a : LocalAddr} {i : GrantIdx} {n : GenNo}
    {h : HostAddr} (hl : s.lookupGrant p k a = .pass i n h) : ∃ g, s.grants[i].grant = some g := by
  unfold State.lookupGrant State.grantAt at hl
  split at hl
  · cases hl
  · rename_i j g hg
    obtain ⟨b, -, hb⟩ := List.exists_of_findSome?_eq_some hg
    dsimp only at hl
    split at hl
    · cases hl
    · split at hl
      · cases hl
        revert hb
        split
        · rename_i g' hg'
          intro hb
          split at hb
          · cases hb
            exact ⟨_, hg'⟩
          · cases hb
        · intro hb
          cases hb
      · cases hl

/-- The grant of a head read takes the head access away, and no other port changes (R66, R70, R97, R98). -/
theorem State.grantRead_ports (p : PortNo) (t : TagNo) (a : LocalAddr) (len : Nat) (l : Label) (s : State) :
    ∃ q : Port, q.head = none ∧ (s.grantRead p t a len l).ports = s.ports.set p q := by
  unfold State.grantRead
  split
  · rw [State.refuseHead_eq]
    exact ⟨_, by unfold portRefusing; (repeat' split) <;> (try unfold faulted) <;> (try split) <;> rfl, rfl⟩
  · rename_i i n h hl
    unfold State.lookupAccess at hl
    split at hl
    · cases hl
    · split at hl
      · cases hl
      · obtain ⟨g, hg⟩ := State.lookupGrant_pass hl
        rw [hg]
        exact ⟨_, rfl, rfl⟩

/-- With some head read eligible, a grant takes the head access of one port away, and no other port changes (R96). -/
theorem State.tagGrant_ports {s : State} {p : PortNo} (h : s.readEligible p = true) :
    ∃ (p' : PortNo) (q : Port), s.ports[p'].head.isSome = true ∧ q.head = none ∧ s.tagGrant.ports = s.ports.set p' q := by
  unfold State.tagGrant
  split
  · rename_i hf
    rw [List.find?_eq_none] at hf
    refine absurd h (hf p ?_)
    unfold portsAfter
    rw [List.mem_map]
    exact ⟨p - (s.tagLast + 1), List.mem_finRange _, add_sub_cancel _ _⟩
  · rename_i p' hf
    have he := List.find?_some hf
    unfold State.readEligible at he
    simp only [Bool.and_eq_true] at he
    obtain ⟨⟨⟨hh, -⟩, -⟩, ht⟩ := he
    split
    · rename_i a len l t hp hl
      obtain ⟨q, hq, hs⟩ := State.grantRead_ports p' t a len l { s with tagLast := p' }
      exact ⟨p', q, by rw [hp]; rfl, hq, by rw [moderate_ports, hs]⟩
    · rename_i hn
      revert hh
      split
      · rename_i a len l hp
        obtain ⟨t, ht⟩ := Option.isSome_iff_exists.mp ht
        exact absurd ht (fun ht => hn a len l t hp ht)
      · intro hh; cases hh

/-- A grant changes no slot (R97, R98). -/
@[simp] theorem State.tagGrant_slots (s : State) : s.tagGrant.slots = s.slots := by
  unfold State.tagGrant
  (repeat' split) <;> simp

/-- A grant leaves the submission order as it is (R97, R98). -/
@[simp] theorem State.tagGrant_order (s : State) : s.tagGrant.order = s.order := by
  unfold State.tagGrant
  (repeat' split) <;> simp

/-! ### The grants before a SET-REQUESTER -/

@[simp] theorem State.grantsBefore_slots (k : SlotNo) : ∀ (n : Nat) (s : State), (s.grantsBefore k n).slots = s.slots
  | 0, _ => rfl
  | n + 1, s => by
    unfold State.grantsBefore
    split
    · rw [State.grantsBefore_slots k n, State.tagGrant_slots]
    · rfl

@[simp] theorem State.grantsBefore_order (k : SlotNo) : ∀ (n : Nat) (s : State), (s.grantsBefore k n).order = s.order
  | 0, _ => rfl
  | n + 1, s => by
    unfold State.grantsBefore
    split
    · rw [State.grantsBefore_order k n, State.tagGrant_order]
    · rfl

/-- How many ports have a head access. -/
def State.heads (s : State) : Nat :=
  (List.finRange 8).countP fun p => s.ports[p].head.isSome

theorem State.heads_le (s : State) : s.heads ≤ 8 := by
  unfold State.heads
  exact le_trans List.countP_le_length (by simp)

/-- A grant to an eligible head read leaves one head access fewer. -/
theorem State.tagGrant_heads {s : State} {p : PortNo} (h : s.readEligible p = true) : s.tagGrant.heads + 1 = s.heads := by
  obtain ⟨p', q, hp, hq, hs⟩ := State.tagGrant_ports h
  have hf : ∀ j : PortNo, s.tagGrant.ports[j].head.isSome = (decide (j ≠ p') && s.ports[j].head.isSome) := by
    intro j
    by_cases hj : j = p'
    · subst hj; simp [hs, hq]
    · have : ¬ p'.val = j.val := fun e => hj (Fin.ext e.symm)
      simp [hs, this, hj]
  have hc : ∀ l : List PortNo, l.Nodup →
      l.countP (fun j => decide (j ≠ p') && s.ports[j].head.isSome) + (if p' ∈ l then 1 else 0)
        = l.countP fun j => s.ports[j].head.isSome := by
    intro l
    induction l with
    | nil => simp
    | cons a l ih =>
      intro hn
      obtain ⟨ha, hn⟩ := List.nodup_cons.mp hn
      have := ih hn
      rw [List.countP_cons, List.countP_cons]
      by_cases e : a = p'
      · subst e
        rw [if_neg ha] at this
        rw [hp, if_pos List.mem_cons_self]
        simpa using this
      · simp only [List.mem_cons, Ne.symm e, false_or] at this ⊢
        simp [e] at this ⊢
        omega
  have := hc (List.finRange 8) (List.nodup_finRange 8)
  rw [if_pos (List.mem_finRange p')] at this
  unfold State.heads
  rw [← this, List.countP_congr (fun j _ => by rw [hf j])]

/-- A limit meets an eligible read only where a head read is eligible. -/
theorem State.limitMeetsEligible_eligible {s : State} {k : SlotNo} (h : s.limitMeetsEligible k = true) :
    s.readEligible s.slots[k].requester = true := by
  unfold State.limitMeetsEligible at h
  simp only [Bool.and_eq_true] at h
  exact h.2

/-- As many grants as there are head accesses are enough: one more makes no difference. -/
theorem State.grantsBefore_enough (k : SlotNo) : ∀ (n : Nat) (s : State), s.heads ≤ n →
    s.grantsBefore k (n + 1) = s.grantsBefore k n
  | 0, s, h => by
    unfold State.grantsBefore
    split
    · rename_i hm
      have := State.tagGrant_heads (State.limitMeetsEligible_eligible hm)
      omega
    · rfl
  | n + 1, s, h => by
    unfold State.grantsBefore
    split
    · rename_i hm
      have := State.tagGrant_heads (State.limitMeetsEligible_eligible hm)
      exact State.grantsBefore_enough k n _ (by omega)
    · rfl

/-- The grants before a SET-REQUESTER, said as a recursion that no bound cuts short: none where no eligible read is met, else one
grant and then those before it in the state that it leaves (R95, R96). -/
theorem State.grantsBefore_eq (k : SlotNo) (s : State) :
    s.grantsBefore k 8 = if s.limitMeetsEligible k then s.tagGrant.grantsBefore k 8 else s := by
  rw [← State.grantsBefore_enough k 8 s s.heads_le, State.grantsBefore]

/-- After the grants, the limit meets no eligible read any more (R95). -/
theorem State.grantsBefore_done (k : SlotNo) : ∀ (n : Nat) (s : State), s.heads ≤ n →
    (s.grantsBefore k n).limitMeetsEligible k = false
  | 0, s, h => by
    rw [State.grantsBefore, Bool.eq_false_iff]
    intro hm
    have := State.tagGrant_heads (State.limitMeetsEligible_eligible hm)
    omega
  | n + 1, s, h => by
    unfold State.grantsBefore
    split
    · rename_i hm
      have := State.tagGrant_heads (State.limitMeetsEligible_eligible hm)
      exact State.grantsBefore_done k n _ (by omega)
    · rename_i hm
      exact Bool.eq_false_iff.mpr hm

end Sys2Proof.Machine
end

