-- ==== Sys2Proof/Laws/Commands.lean ====
section
/-! SUPPORT. What the commands of the engine and the writes of the host window read from a slot: the front of the submission
order, results, the arguments of OPEN and MODIFY, and the place of a word. -/

namespace Sys2Proof.Machine

open Sys2Proof.Safety

/-! ### The engine -/

/-- The engine executes the command at the front (R141). -/
theorem engine_eq {s : State} {k : SlotNo} {rest : List SlotNo} {op : BitVec 16} (h : atFront s k rest op)
    {isRow : BitVec 16 → Bool} {cmd : SlotNo → State → State}
    (hr : isRow op = true) : engine isRow cmd s = answerNext s (cmd k { s with order := rest }) := by
  obtain ⟨h1, h2⟩ := h
  simp only [engine, h1, h2, hr, if_true]

/-- A command that ends with a status alone (R142, R145). -/
theorem endSlot_endsWith {s : State} {k : SlotNo} {rest : List SlotNo} {st : Status} :
    endsWith s k rest st (moderate s (({ s with order := rest } : State).endSlot k st)) := by
  apply moderate_settles
  rw [State.endSlot_eq]; rfl

/-- Checks 1 to 3 of SET-REQUESTER (R82). -/
theorem Slot.requesterFault_iff (sl : Slot) : sl.requesterFault = false ↔ requesterGood sl := by
  have hp : (sl.policy == none) = false ↔ sl.args[13].extractLsb' 0 8 = 0#8 ∨ sl.args[13].extractLsb' 0 8 = 1#8 := by
    rw [show sl.policy = if sl.args[13].extractLsb' 0 8 = 0#8 then some .carryOn
      else if sl.args[13].extractLsb' 0 8 = 1#8 then some .halt else none from rfl]
    split <;> [simp [*]; (split <;> simp [*])]
  unfold Slot.requesterFault requesterGood
  rw [Bool.or_eq_false_iff, Bool.or_eq_false_iff, presenceFault_iff, Slot.names_eq, Slot.names_eq, Slot.readLimit_eq, and_assoc]
  generalize (sl.args[14].extractLsb' 0 8).toNat = n
  refine and_congr Iff.rfl (and_congr ?_ ?_)
  · cases present sl 0
    · simp
    · simpa using hp
  · cases present sl 1
    · simp
    · rw [Bool.true_and, Bool.or_eq_false_iff, beq_eq_false_iff_ne, decide_eq_false_iff_not, Config.maxReadLimit]
      simp only [forall_const]
      omega

/-- When the grant of an eligible read comes before a SET-REQUESTER (R95; log entry 21). -/
theorem State.limitMeetsEligible_iff {s : State} {k : SlotNo} (h : s.slots[k].opcode = 0x0008#16) :
    s.limitMeetsEligible k = true ↔ Safety.limitMeetsEligible s s.slots[k] (requesterOf s.slots[k]) := by
  unfold State.limitMeetsEligible Safety.limitMeetsEligible
  simp only [Bool.and_eq_true, Bool.not_eq_true', Slot.requesterFault_iff, Slot.names_eq, Slot.readLimit_eq, beq_iff_eq,
    State.readEligible_eq, Slot.requester_eq, h, true_and, and_assoc]

/-- SET-REQUESTER is executed at the front, after the grants that come before it (R82, R95, R141). -/
theorem execSetRequester_eq {s : State} {k : SlotNo} {rest : List SlotNo} (h : atFront s k rest 0x0008#16) :
    execSetRequester s = answerNext (s.grantsBefore k 8) (cmdSetRequester k { s.grantsBefore k 8 with order := rest }) := by
  have hf : atFront (s.grantsBefore k 8) k rest 0x0008#16 := by
    simpa [atFront] using h
  unfold execSetRequester
  rw [h.1]
  exact engine_eq hf rfl

/-- Where its limit meets no eligible read, a SET-REQUESTER is executed on the state as it is (R82, R141). -/
theorem execSetRequester_of_not_meets {s : State} {k : SlotNo} {rest : List SlotNo} (h : atFront s k rest 0x0008#16)
    (hw : ¬ Safety.limitMeetsEligible s s.slots[k] (requesterOf s.slots[k])) :
    execSetRequester s = answerNext s (cmdSetRequester k { s with order := rest }) := by
  rw [execSetRequester_eq h, State.grantsBefore_eq, if_neg (by rwa [State.limitMeetsEligible_iff h.2])]

/-! ### Results -/

@[simp] theorem writeResult_nil (area : Vector Word 32) : writeResult [] area = area := rfl

/-- One word of a result, at its place in the result area (R177). -/
theorem writeResult_cons {o : Nat} (w : Word) (ws : List ResultWord) (area : Vector Word 32) (h : (o - 0x80) / 4 < 32) :
    writeResult ((o, w) :: ws) area = writeResult ws (area.set ((o - 0x80) / 4) w) := by
  have : area.setIfInBounds ((o - 0x80) / 4) w = area.set ((o - 0x80) / 4) w := by
    ext j hj
    simp [Vector.getElem_setIfInBounds, Vector.getElem_set]
  rw [← this]
  rfl

/-- A generation number as a word. -/
theorem put_gen (n : GenNo) : put 0 4 n.toNat = n.setWidth 32 := by simp [put]

/-! ### OPEN (R22, R24) -/

theorem openRanges_iff (sl : Slot) : openRanges sl ↔
    (sl.localAddr.toNat % Config.pageBytes = 0 ∧ lengthLegal sl.length
      ∧ sl.localAddr.toNat + sl.length ≤ Config.apertureEnd
      ∧ sl.hostBase.toNat % Config.pageBytes = 0 ∧ sl.hostBase.toNat + sl.length ≤ Config.hostEnd
      ∧ sl.clients ≠ 0#8) ∧ rightsOf sl.rightsField = some (sl.args[6].extractLsb' 0 2) := by
  rw [Slot.rightsField_eq, rightsOf_iff]
  unfold openRanges lengthLegal Config.pageBytes Config.apertureEnd Config.hostEnd Config.maxGrantBytes
  rw [Slot.localAddr_eq, Slot.length_eq, Slot.hostBase_eq, Slot.clients_eq]
  simp only [Bool.and_eq_true, beq_iff_eq, decide_eq_true_eq]
  have : 256 * 1024 * 1024 = 268435456 := rfl
  rw [this]
  constructor
  · rintro ⟨a, b, c, d, e, f, g, h, i, j⟩; exact ⟨⟨a, ⟨⟨b, c⟩, d⟩, e, f, g, j⟩, h, i, by trivial⟩
  · rintro ⟨⟨a, ⟨⟨b, c⟩, d⟩, e, f, g, j⟩, h, i, -⟩; exact ⟨a, b, c, d, e, f, g, h, i, j⟩

theorem Slot.openedGrant_some {sl : Slot} {l : Lease} (h1 : openRanges sl) (h2 : suppliedLease sl l) :
    sl.openedGrant = some (grantOpened sl l) := by
  have h3 := (openRanges_iff sl).mp h1
  have h4 := (leaseOf_iff sl l).mpr h2
  unfold Slot.openedGrant
  rw [if_pos h3.1, h3.2, h4]
  rfl

theorem Slot.openedGrant_none {sl : Slot} (h : ¬ (openRanges sl ∧ ∃ l, suppliedLease sl l)) :
    sl.openedGrant = none := by
  unfold Slot.openedGrant
  split
  · rename_i h1
    cases hr : rightsOf sl.rightsField with
    | none => rfl
    | some r =>
      cases hl : leaseOf sl.leaseKind sl.period with
      | none => rfl
      | some l =>
        exfalso
        apply h
        refine ⟨(openRanges_iff sl).mpr ⟨h1, ?_⟩, l, (leaseOf_iff sl l).mp hl⟩
        have := hr
        rw [Slot.rightsField_eq, rightsOf_iff] at this
        rw [hr, this.2.2]
  · rfl

/-! ### Handles (R8) -/

/-- The handle of a grant that a slot names finds it. -/
theorem State.byHandle_at {s : State} {sl : Slot} {i : GrantIdx} {g : Grant} (h : named s sl i g) :
    s.byHandle { index := i, seq := s.grants[i].seq } = some g := by
  have := State.byHandle_named h
  rw [← this.1]; exact this.2

/-- A stale handle finds nothing. -/
theorem State.byHandle_stale {s : State} {sl : Slot} (h : staleHandle s sl) :
    s.byHandle sl.handle = none := by
  rw [Slot.handle_eq]
  have := h _ rfl
  unfold State.byHandle
  rcases this with h | h | h
  · split
    · rfl
    · exact h
  · rw [if_pos]; right; exact fun e => h e.symm
  · rw [if_pos]; left; exact h

/-! ### MODIFY (R33, R37 to R40) -/

theorem Slot.nextLease_iff {sl : Slot} {g : Grant} {l : Lease} :
    sl.nextLease g = some l ↔ (if present sl 4 then suppliedLease sl l else l = g.lease) := by
  unfold Slot.nextLease
  rw [Slot.names_eq]
  split
  · exact leaseOf_iff sl l
  · simp [eq_comm]

/-- The new generation of a mapping MODIFY, field by field. -/
theorem Slot.nextGeneration_iff {sl : Slot} {g : Grant} {n : Generation} :
    sl.nextGeneration g = some n ↔ newGeneration sl g n := by
  unfold Slot.nextGeneration newGeneration
  rw [Slot.names_eq, Slot.names_eq, Slot.names_eq, Slot.names_eq, Slot.length_eq, Slot.hostBase_eq,
    Slot.clients_eq, Slot.rightsField_eq]
  have hm : Config.maxGrantBytes = 268435456 := rfl
  unfold lengthLegal Config.pageBytes Config.apertureEnd Config.hostEnd
  rw [hm]
  obtain ⟨nn, nl, nh, nr, nc, nk⟩ := n
  have key : ∀ (b0 b1 b2 b3 : Bool) (L : Nat) (H : HostAddr) (C : Set8) (R : Option Rights) (R' : Rights),
      (∀ r, R = some r ↔ (r = R' ∧ (b2 = true → sl.args[6].extractLsb' 2 6 = 0#6 ∧ r ≠ 0#2))) →
      ((match R with
        | none => none
        | some r =>
          if ((b0 && H.toNat % 4096 != 0)
              || (b1 && (!(L % 4096 == 0 && decide (4096 ≤ L) && decide (L ≤ 268435456))
                || decide (1073741824 < g.localBase.toNat + L)))
              || decide (2 ^ 64 < H.toNat + L) || (b3 && C == 0#8)) = true then none
          else some (
            { number := g.cur.number + 1#4, length := L, hostBase := H, rights := r, clients := C, count := 0 } :
              Generation)) = some ⟨nn, nl, nh, nr, nc, nk⟩
        ↔ (nn = g.cur.number + 1#4 ∧ nk = 0 ∧ nl = L ∧ nh = H ∧ nr = R' ∧ nc = C
          ∧ (b0 = true → nh.toNat % 4096 = 0)
          ∧ (b1 = true → nl % 4096 = 0 ∧ 4096 ≤ nl ∧ nl ≤ 268435456 ∧ g.localBase.toNat + nl ≤ 0x40000000)
          ∧ nh.toNat + nl ≤ 2 ^ 64 ∧ (b2 = true → sl.args[6].extractLsb' 2 6 = 0#6 ∧ nr ≠ 0#2)
          ∧ (b3 = true → nc ≠ 0#8))) := by
    intro b0 b1 b2 b3 L H C R R' hr
    cases R with
    | none =>
      simp only [reduceCtorEq, false_iff]
      rintro ⟨-, -, -, -, h1, -, -, -, -, h2, -⟩
      have := (hr nr).mpr ⟨h1, h2⟩
      cases this
    | some r =>
      obtain ⟨rfl, h2⟩ := (hr r).mp rfl
      constructor
      · intro h
        dsimp only at h
        split at h
        · cases h
        · rename_i hf
          simp only [Option.some.injEq, Generation.mk.injEq] at h
          obtain ⟨rfl, rfl, rfl, rfl, rfl, rfl⟩ := h
          refine ⟨rfl, rfl, rfl, rfl, rfl, rfl, ?_, ?_, ?_, h2, ?_⟩
          · rintro rfl; by_contra h; apply hf; simp [h]
          · rintro rfl
            by_contra h; apply hf; simp; omega
          · by_contra h; apply hf; simp; omega
          · rintro rfl h; apply hf; simp [h]
      · rintro ⟨rfl, rfl, rfl, rfl, rfl, rfl, a, b, c, d, e⟩
        dsimp only
        rw [if_neg]
        intro h
        simp only [Bool.or_eq_true, Bool.and_eq_true, decide_eq_true_eq, bne_iff_ne, beq_iff_eq,
          Bool.not_eq_true', Bool.and_eq_false_iff, decide_eq_false_iff_not, beq_eq_false_iff_ne] at h
        rcases h with ((h | h) | h) | h
        · exact h.2 (a h.1)
        · have := b h.1
          omega
        · omega
        · exact e h.1 h.2
  apply key
  intro r
  cases present sl 2
  · rw [if_neg (by decide), if_neg (by decide)]
    simp only [Option.some.injEq, Bool.false_eq_true, false_implies, and_true]
    exact eq_comm
  · rw [if_pos rfl, if_pos rfl, rightsOf_iff]
    constructor
    · rintro ⟨a, b, c⟩; exact ⟨c, fun _ => ⟨a, c ▸ b⟩⟩
    · rintro ⟨c, h⟩; exact ⟨(h rfl).1, c ▸ (h rfl).2, c⟩

/-- The argument check of a MODIFY (R37). -/
theorem Slot.modifyArgsGood_iff {sl : Slot} {g : Grant} : sl.modifyArgsGood g = true ↔ modifyGood sl g := by
  unfold Slot.modifyArgsGood modifyGood
  simp only [Bool.and_eq_true, Bool.not_eq_true', Bool.or_eq_true, presenceFault_iff, Option.isSome_iff_exists,
    Slot.nextLease_iff, Slot.nextGeneration_iff, and_assoc]
  refine and_congr_right fun _ => and_congr ?_ ?_
  · cases present sl 4 <;> simp
  · rw [← Bool.not_eq_true, namesMapping_iff]; tauto

/-! ### QUERY in mode NEXT (R25) -/

theorem State.firstGrantFrom_eq {s : State} {sl : Slot} {j : GrantIdx} (h0 : sl.mode = 1#8) (h : queried s sl j) :
    s.firstGrantFrom sl.index = some j := by
  rcases h with ⟨h, -⟩ | ⟨-, h1, h2, h3⟩
  · rw [Slot.mode_eq] at h0; rw [h0] at h; exact absurd h (by decide)
  · unfold State.firstGrantFrom
    apply find_finRange
    · simp only [Bool.and_eq_true, decide_eq_true_eq]
      exact ⟨h1, Option.isSome_iff_ne_none.mpr h2⟩
    · intro m hm
      by_cases hi : sl.index ≤ m
      · rw [h3 m hi hm]; simp
      · simp [hi]

/-! ### The host window -/

/-- A word of a slot, by its offset (R176). -/
theorem slotOfOffset_eq (k : SlotNo) (o : BitVec 14) (r : Nat) (hr : r < 0x100)
    (h : o.toNat = 0x1000 + 0x100 * k.val + r) :
    slotOfOffset o.toNat = some k ∧ o.toNat % 0x100 = r := by
  have := k.isLt
  refine ⟨?_, by omega⟩
  unfold slotOfOffset
  rw [dif_pos (by omega)]
  congr 1
  apply Fin.ext
  simp only
  omega

/-- A write of a read-only word or at an undefined offset has no effect (R167, R176). -/
theorem State.writeWord_idle {o : BitVec 14} (h : readOnlyOffset o ∨ undefinedOffset o) (v : Word) (s : State) :
    s.writeWord o v = s := by
  unfold State.writeWord slotOfOffset
  unfold readOnlyOffset undefinedOffset at h
  by_cases hs : 0x1000 ≤ o.toNat ∧ o.toNat < 0x1400
  · simp only [dif_pos hs]
    have : o.toNat % 0x100 ≠ 0 ∧ ¬ (0x10 ≤ o.toNat % 0x100 ∧ o.toNat % 0x100 ≤ 0x7C) := by
      rcases h with (h | h | h | h | ⟨k, h⟩) | (h | h | h | h | ⟨k, h⟩) <;> omega
    rw [if_neg this.1, if_neg this.2]
  · simp only [dif_neg hs]
    iterate 7 rw [if_neg (by rcases h with (h | h | h | h | ⟨k, h⟩) | (h | h | h | h | ⟨k, h⟩) <;> omega)]

/-- A word read at an undefined offset is 0 (R167, R176). -/
theorem State.readWord_undefined {o : BitVec 14} (h : undefinedOffset o) (h4 : o.toNat % 4 = 0) (s : State) :
    s.readWord o = 0#32 := by
  unfold State.readWord slotOfOffset
  unfold undefinedOffset at h
  by_cases hs : 0x1000 ≤ o.toNat ∧ o.toNat < 0x1400
  · simp only [dif_pos hs, Slot.readWord]
    rcases h with h | h | h | h | ⟨k, h⟩
    all_goals try omega
    iterate 4 rw [if_neg (by omega)]
  · simp only [dif_neg hs]
    iterate 14 rw [if_neg (by rcases h with h | h | h | h | ⟨k, h⟩ <;> omega)]

theorem Slot.busy_iff (sl : Slot) : sl.busy = true ↔ Safety.busy sl := by
  unfold Slot.busy Safety.busy
  simp

/-- Any write of the CANCEL code is a CANCEL, whatever its upper bits (R177). -/
theorem cancelCode_word (u : BitVec 16) : (u ++ Config.cancelCode).extractLsb' 0 16 = Config.cancelCode := by
  unfold Config.cancelCode
  ext i hi
  have : (u ++ 0x00FF#16).getLsbD i = (0x00FF#16).getLsbD i := by
    rw [BitVec.getLsbD_append, if_pos hi]
  rw [BitVec.getElem_extractLsb', Nat.zero_add]
  exact this

end Sys2Proof.Machine
end

