-- ==== Sys2Proof/Laws/Timers.lean ====
section
/-! SUPPORT. When a timer is due, and what is left of one that has stopped or is reported. -/

namespace Sys2Proof.Machine

open Sys2Proof.Safety

/-- A lease expires when its timer runs and stands at 0 (R54). -/
theorem Grant.leaseDue_iff (g : Grant) :
    g.leaseDue = true ↔ g.phase.isClosing = false ∧ ∃ k p, g.lease = .timed k p 0 := by
  unfold Grant.leaseDue Grant.leaseRuns
  cases g.lease <;> simp [Lease.isTimed, Lease.remaining, and_comm]

/-- The expiry of some running timer is due exactly when one stands at 0. -/
theorem State.expiryDue_iff (s : State) : s.expiryDue = true ↔ timerDue s := by
  have hg : s.grants.toList.any Record.due = true
      ↔ ∃ i : GrantIdx, ∃ g k p, s.grants[i].grant = some g ∧ g.phase.isClosing = false ∧ g.lease = .timed k p 0 := by
    simp only [List.any_eq_true, Vector.mem_toList_iff, Vector.mem_iff_getElem]
    constructor
    · rintro ⟨_, ⟨i, hi, rfl⟩, h⟩
      unfold Record.due at h
      split at h
      · rename_i g hgr
        obtain ⟨hc, k, p, hl⟩ := g.leaseDue_iff.mp h
        exact ⟨⟨i, hi⟩, g, k, p, hgr, hc, hl⟩
      · cases h
    · rintro ⟨i, g, k, p, hgr, hc, hl⟩
      refine ⟨_, ⟨i.val, i.isLt, rfl⟩, ?_⟩
      have hgr' : s.grants[i.val].grant = some g := hgr
      unfold Record.due
      rw [hgr']
      exact g.leaseDue_iff.mpr ⟨hc, k, p, hl⟩
  have ht : s.tags.toList.any TagEntry.due = true
      ↔ (∃ n : TagNo, ∃ r i, s.tags[n] = .waiting r i 0) ∨ ∃ n : TagNo, ∃ i, s.tags[n] = .parked i 0 := by
    simp only [List.any_eq_true, Vector.mem_toList_iff, Vector.mem_iff_getElem]
    constructor
    · rintro ⟨_, ⟨n, hn, rfl⟩, h⟩
      cases he : s.tags[n] with
      | free => rw [he] at h; cases h
      | waiting r i t =>
        rw [he] at h
        obtain rfl : t = 0 := by simpa [TagEntry.due] using h
        exact .inl ⟨⟨n, hn⟩, r, i, he⟩
      | parked i t =>
        rw [he] at h
        obtain rfl : t = 0 := by simpa [TagEntry.due] using h
        exact .inr ⟨⟨n, hn⟩, i, he⟩
    · rintro (⟨n, r, i, h⟩ | ⟨n, i, h⟩)
      all_goals
        refine ⟨_, ⟨n.val, n.isLt, rfl⟩, ?_⟩
        have h' := h
        simp only [Fin.getElem_fin] at h'
        rw [h']
        rfl
  unfold State.expiryDue timerDue
  simp only [Bool.or_eq_true, hg, ht, beq_iff_eq, or_assoc]

/-- What a CLOSE leaves of a lease (R54). -/
theorem Lease.stopped_eq (l : Lease) : l.stopped = leaseStopped l := by
  cases l <;> rfl

/-- The remaining time that QUERY reports (R55, R61). -/
theorem Grant.remainingMs_eq (g : Grant) : g.remainingMs = (leaseNumbers g).2.2 := by
  unfold Grant.remainingMs leaseNumbers
  cases g.lease with
  | untimed => rfl
  | timed k p r =>
    have : g.phase.cause = none ↔ g.phase.isClosing = false := by
      cases g.phase <;> simp [Phase.cause, Phase.isClosing]
    cases k <;> cases h : g.phase.isClosing <;> simp [this, h, ceilMs, Config.unitsPerMs]

end Sys2Proof.Machine
end

