-- ==== Sys2Proof/Tests/Slice0.lean ====
section
/-! SUPPORT. Small tests. Expected values are the spec's: a rule, or one of its worked examples, named in the docstring. The
witnesses of the statements stand at the end: each shows that what a statement assumes can be met. -/

namespace Sys2Proof.Tests

open Sys2Proof.Machine Sys2Proof.Safety

/-! ### Helpers -/

/-- The state after a command. -/
def after (c : Instr) (s : State) : State :=
  match exec c s with
  | .next t => t
  | _ => s

/-- The part after power-on with the link brought UP. -/
def up (posted read : Nat) : State := after (.trainingComplete posted read) State.reset

/-- A state with a record of the grant table replaced. -/
def grantAt (i : GrantIdx) (q : Seq) (g : Grant) (s : State) : State :=
  { s with grants := s.grants.set i { seq := q, grant := some g } }

/-- A state with the head access of a port replaced. -/
def headAt (p : PortNo) (a : Access) (s : State) : State :=
  { s with ports := s.ports.set p { s.ports[p] with head := some a } }

def tagAt (n : TagNo) (e : TagEntry) (s : State) : State := { s with tags := s.tags.set n e }

/-- A PENDING slot with an opcode and some argument words, by their number from +0x10. -/
def slotOf (op : BitVec 16) (args : List (Nat × Word)) : Slot :=
  { Slot.initial with
    state := .pending, opcode := op, args := args.foldl (fun a w => a.setIfInBounds w.1 w.2) Slot.initial.args }

/-- A state in which the engine's next execution is that of a slot. -/
def engineAt (k : SlotNo) (sl : Slot) (s : State) : State :=
  { s with order := [k], slots := s.slots.set k sl }

/-- Grant 0.1 of the example of section 1.6: 16 MiB at 0x0400_0000. -/
def grantA : Grant :=
  { phase := .opened, localBase := 0x04000000#30
    cur := { number := 0#4, length := 0x1000000, hostBase := 0x0000000180000000#64, rights := 3#2, clients := 3#8, count := 0 }
    lease := .untimed, waiting := none, readCount := 0, writeCount := 0, tag := 0xA1#32 }

/-- Grant 1.1 of the same example: 4 MiB at 0x0500_0000, lease IDLE with period 500 ms. -/
def grantB : Grant :=
  { phase := .opened, localBase := 0x05000000#30
    cur := { number := 0#4, length := 0x400000, hostBase := 0x0000000200000000#64, rights := 2#2, clients := 4#8, count := 0 }
    lease := .timed .idle 500#16 50000, waiting := none, readCount := 0, writeCount := 0, tag := 0xB2#32 }

/-- A grant with the lease of grant 1.1 run down to 0. -/
def spent (g : Grant) : Grant := { g with lease := .timed .idle 500#16 0 }

/-- The arguments of the second OPEN of that example, with another base and length. -/
def openArgs (base len : Word) : List (Nat × Word) :=
  [(2, base), (3, len), (4, 0#32), (5, 2#32), (6, 0x0402#32), (7, 2#32), (8, 500#32), (9, 0xB2#32)]

/-- The read of that example: 256 bytes at 0x0412_3400. -/
def readA : Presented := { kind := .read, addr := 0x04123400#30, length := 256#10, label := 6#3, data := [] }

/-- A read held by a tag under grant 0, generation 0. -/
def infoA (len got : Nat) (d : Bool) : ReadInfo :=
  { requester := 1, label := 6#3, detached := d, index := 0, gen := 0#4, hostAddr := 0x0000000180123400#64, length := len,
    received := got }

/-- Grant 0 with one read in flight in tag 31, and its port accounted. -/
def reading (len got : Nat) (g : Grant) (s : State) : State :=
  tagAt 31 (.waiting (infoA len got false) 64 6400)
    { (grantAt 0 1#8 { g with cur := { g.cur with count := 1 } } s) with
      ports := s.ports.set 1 { s.ports[1] with outstanding := 1, labels := 0x40#8 } }

def entryA (len : Nat) : QueueEntry :=
  { requester := 0, index := 0, gen := 0#4, hostAddr := 0x0000000180000000#64, length := len, data := List.replicate len 0#8 }

/-! ### WellFormed refuses -/

/-- R65: a READ carries no data. -/
theorem test_wf_read_with_data :
    (Instr.presentAccess 0 { readA with data := [0#8] }).wellFormed = false := by decide

/-- R13, R65: a WRITE carries as many bytes as its length says. -/
theorem test_wf_write_too_short :
    (Instr.presentAccess 0 { readA with kind := .write, length := 2#10, data := [0#8] }).wellFormed = false := by decide

/-- R138: the CANCEL code is no submission. -/
theorem test_wf_submission_of_cancel : (Instr.submission 0 0xABCD00FF#32).wellFormed = false := by decide

/-- R167: a write covers a byte at least. -/
theorem test_wf_write_of_nothing : (Instr.hostWindowWrite 0#14 0 0xF#4 0#32).wellFormed = false := by decide

/-- R167: a write lies in the window of 16,384 bytes. -/
theorem test_wf_write_past_window : (Instr.hostWindowWrite 0x3FFF#14 2 0xF#4 0#32).wellFormed = false := by decide

/-- The submit word of slot 2 has rows of its own (0x1200: section 11.1). -/
theorem test_wf_write_with_own_row : (Instr.hostWindowWrite 0x1200#14 4 0xF#4 0#32).wellFormed = false := by decide

/-- A narrow write of the same word is no submission (R167), so it is a HOST_WINDOW_WRITE. -/
theorem test_wf_narrow_write : (Instr.hostWindowWrite 0x1200#14 2 0x3#4 0#32).wellFormed = true := by decide

/-! ### The link -/

/-- R168: training sets the credit to the amounts advertised. -/
theorem test_training : (up 34 2).link =
    { up := true, postedCredit := 34, readCredit := 2, outbound := [], messaging := false } := by decide

/-- R51: at teardown the sequence of a grant not in FREE advances, and the others keep theirs. -/
theorem test_teardown_sequences :
    ((after .functionReset (grantAt 5 255#8 grantA (up 0 0))).grants[5].seq = 1#8)
      ∧ (after .functionReset (grantAt 5 255#8 grantA (up 0 0))).grants[6].seq = 1#8 := by decide

/-- R166: a hot reset leaves the link DOWN without credit. -/
theorem test_hot_reset : (after .hotReset (up 34 2)).link.up = false ∧ (after .hotReset (up 34 2)).link.postedCredit = 0 := by
  decide

/-- R172: with messaging disabled as the message reaches the front it is removed unsent; once read enabled it waits for credit
and is not dropped later. -/
theorem test_message_disabled :
    (after (.messageSend false) { up 2 0 with link := { (up 2 0).link with outbound := [.message] } }).sent = []
      ∧ (after (.messageSend false) (after (.creditGrant 2 0) (after (.messageSend true)
          { up 0 0 with link := { (up 0 0).link with outbound := [.message] } }))).sent = [.message] := by decide

/-! ### Ports and the read unit -/

/-- The example of section 1.6: the lookup of requester 1's read gives host address 0x0000_0001_8012_3400. -/
theorem test_issue_address :
    (after .tagGrant (after (.presentAccess 1 readA) (grantAt 0 1#8 grantA (up 0 0)))).link.outbound
      = [.memRead 0 0x0000000180123400#64 256] := by decide

/-- The same example: the count and the read count become 1. -/
theorem test_issue_counts :
    ((after .tagGrant (after (.presentAccess 1 readA) (grantAt 0 1#8 grantA (up 0 0)))).grants[0].grant.map
      fun g => (g.cur.count, g.readCount)) = some (1, 1) := by decide

/-- The same example: a read of 256 bytes at 0x0412_3F80 crosses a page and is MALFORMED. -/
theorem test_page_crossing :
    (after (.presentAccess 1 { readA with addr := 0x04123F80#30 }) (grantAt 0 1#8 grantA (up 0 0))).answers
      = [(1, .readEnd 6#3 .malformed true)] := by decide

/-- The example of section 5.3: last-granted 3, eligible 1, 3 and 6: port 6 is granted. -/
theorem test_allocator_round :
    (after .tagGrant { (headAt 1 (.read 0#30 1 0#3) (headAt 3 (.read 0#30 1 0#3) (headAt 6 (.read 0#30 1 0#3) (up 0 0)))) with
      tagLast := 3 }).tagLast = 6 := by decide

/-- R102: 2 of 4 bytes have come; a part of 3 more ends the read HOSTERR, without a beat. -/
theorem test_excess_part :
    (after (.completionPart 31 (.success [0#8, 1#8, 2#8])) (reading 4 2 grantA (up 0 0))).answers
      = [(1, .readEnd 6#3 .hosterr false)] := by decide

/-- The example of section 5.4: the fault record holds the local address that the read was presented at (R77). -/
theorem test_fault_address :
    ((after (.completionPart 31 .unsupported) (reading 512 384 grantA (up 0 0))).ports[1].fault.map fun f => (f.addr, f.length))
      = some (0x04123400#30, 512) := by decide

/-- R105: the tag of a timed-out read is PARKED for its issue timeout of 64 ms; with time left it stays as it is. -/
theorem test_timeout_parks :
    (after (.deadlineExpiry 31) (tagAt 31 (.waiting (infoA 512 384 false) 64 0) (reading 512 384 grantA (up 0 0)))).tags[31]
      = .parked 64 6400
      ∧ (after (.deadlineExpiry 31) (reading 512 384 grantA (up 0 0))).tags[31] = .waiting (infoA 512 384 false) 64 6400 := by
  decide

/-- R109: tag 32 is stray. -/
theorem test_stray : (after (.completionPart 32 .otherError) (up 0 0)).notice.status = 0x4000#15 := by decide

/-! ### The write queue -/

/-- R168: a memory write of 512 bytes costs 33 units. -/
theorem test_write_credit :
    (after .writeLeaving { up 34 0 with queue := [entryA 512] }).link.postedCredit = 1
      ∧ (after .writeLeaving { up 32 0 with queue := [entryA 512] }).sent = [] := by decide

/-! ### Leases and the notice unit -/

/-- The example of chapter 3: expiry without traffic frees the grant, and its index joins the expired set. -/
theorem test_lease_expiry :
    (after (.leaseExpiry 5) (grantAt 5 2#8 (spent grantB) (up 0 0))).grants[5] = { seq := 3#8, grant := none }
      ∧ (after (.leaseExpiry 5) (grantAt 5 2#8 (spent grantB) (up 0 0))).expired = 0x20#64 := by decide

/-- R21: an effective lookup restarts an IDLE lease, and the expiry does not occur. -/
theorem test_lookup_before_expiry :
    ((after (.leaseExpiry 1) (after .writeGrant (headAt 2 (.write 0x05000000#30 1 [0#8])
      (grantAt 1 1#8 (spent grantB) (up 0 0))))).grants[1].grant.map Grant.lease) = some (.timed .idle 500#16 50000) := by decide

/-- The sequence of section 9.8, step 1: below a threshold of 4 the first event starts the timer at 50 units. -/
theorem test_holdoff_starts :
    ((after .badop (engineAt 0 (slotOf 0x0020#16 []) { up 0 0 with
      timing := { timeout := 16, threshold := 4, holdoff := 50 }
      notice := { Notice.initial with enable := 0x1083#15, masterEnable := true } })).notice.holdoffTimer = some 50) := by decide

/-- The same sequence, steps 10 and 11: with pending empty the expiry sends nothing and the count returns to 0. -/
theorem test_holdoff_suppressed :
    ((after .holdoffExpiry { up 0 0 with
      notice := { Notice.initial with masterEnable := true, eventCount := 1, holdoffTimer := some 0 } }).link.outbound = [])
      ∧ (after .holdoffExpiry { up 0 0 with
      notice := { Notice.initial with masterEnable := true, eventCount := 1, holdoffTimer := some 0 } }).notice.eventCount = 0 := by
  decide

/-- R54, R159: an empty queue lets one unit of time pass. -/
theorem test_time : (match step { State.reset with notice := { Notice.initial with eventCount := 1, holdoffTimer := some 50 } } with
    | .next t => t.notice.holdoffTimer
    | _ => none) = some 49 := by decide

/-! ### Commands -/

/-- The example of section 1.6, second OPEN: it touches grant 0.1 and gets handle 1.1. -/
theorem test_open : (after .openGrant (engineAt 2 (slotOf 1#16 (openArgs 0x05000000#32 0x400000#32))
    (grantAt 0 1#8 grantA (up 0 0)))).slots[2].result[0] = 0x101#32
    ∧ (after .openGrant (engineAt 2 (slotOf 1#16 (openArgs 0x05000000#32 0x400000#32))
    (grantAt 0 1#8 grantA (up 0 0)))).grants[1].grant = some grantB := by decide

/-- The same example, third OPEN: 2 MiB at 0x04F0_0000 overlaps. -/
theorem test_open_overlap : (after .openGrant (engineAt 2 (slotOf 1#16 (openArgs 0x04F00000#32 0x200000#32))
    (grantAt 0 1#8 grantA (up 0 0)))).slots[2].status = .overlap := by decide

/-- The example of section 2.3, step 1: the generation goes from 15 to 0 and the grant drains. -/
theorem test_modify_wraps :
    (after .modify (engineAt 0 (slotOf 2#16 [(0, 1#32), (1, 1#32), (4, 0xA0000000#32)])
      (grantAt 0 1#8 { grantA with cur := { grantA.cur with number := 15#4, count := 2 } } (up 0 0)))).slots[0].result[3] = 0#32
      ∧ ((after .modify (engineAt 0 (slotOf 2#16 [(0, 1#32), (1, 1#32), (4, 0xA0000000#32)])
        (grantAt 0 1#8 { grantA with cur := { grantA.cur with number := 15#4, count := 2 } } (up 0 0)))).grants[0].grant.map
          fun g => (g.phase, g.waiting))
        = some (.draining { number := 15#4, length := 0x1000000, hostBase := 0x0000000180000000#64, count := 2 }, some 0) := by
  decide

/-- R45, R5: a CLOSE without traffic frees the index; sequence 255 is followed by 1. -/
theorem test_close_frees : (after .close (engineAt 0 (slotOf 3#16 [(0, 0xFF#32)]) (grantAt 0 255#8 grantA (up 0 0)))).grants[0]
    = { seq := 1#8, grant := none } := by decide

/-- R8: sequence 0 names nothing. -/
theorem test_close_stale : (after .close (engineAt 0 (slotOf 3#16 []) (grantAt 0 0#8 grantA (up 0 0)))).slots[0].status = .stale := by
  decide

/-- R60: a RENEW with period 0 keeps the period and restarts it. -/
theorem test_renew : ((after .renew (engineAt 0 (slotOf 4#16 [(0, 1#32)])
    (grantAt 0 1#8 { grantB with lease := .timed .idle 500#16 1 } (up 0 0)))).grants[0].grant.map Grant.lease)
    = some (.timed .idle 500#16 50000) := by decide

/-- R55, R180: a QUERY reports a remaining time of 1.01 ms as 2 ms, above the period of 500. -/
theorem test_query_rounds_up : (after .query (engineAt 0 (slotOf 5#16 [])
    (grantAt 0 1#8 { grantB with lease := .timed .idle 500#16 101 } (up 0 0)))).slots[0].result[12] = 0x000201F4#32 := by decide

/-- R180: mode NEXT that finds none reports bit 31 alone. -/
theorem test_query_none : (after .query (engineAt 0 (slotOf 5#16 [(1, 1#32)]) (up 0 0))).slots[0].result[0] = 0x80000000#32 := by
  decide

/-- R27: grant 1.1 admits requester 2 to WRITE only. -/
theorem test_lookup_denied : (after .lookup (engineAt 0 (slotOf 6#16 [(2, 0x05000000#32), (10, 2#32), (11, 0#32)])
    (grantAt 1 1#8 grantB (up 0 0)))).slots[0].result[1] = 0x105#32 := by decide

/-- R124: a FENCE with no member ends at once; one with a member waits. -/
theorem test_fence : (after .fence (engineAt 0 (slotOf 7#16 [(12, 1#32)]) (reading 1 0 grantA (up 0 0)))).slots[0].state = .done
    ∧ (after .fence (engineAt 0 (slotOf 7#16 [(12, 2#32)]) (reading 1 0 grantA (up 0 0)))).slots[0].state = .waiting := by decide

/-- R95, R96: with a head read eligible, a limit equal to the outstanding count is set after that read has had its grant: it is
LIMIT where the read was taken, and in force where the grant refused it. -/
theorem test_set_requester_after_grant :
    let s := fun g => engineAt 0 (slotOf 8#16 [(1, 2#32), (10, 1#32), (14, 2#32)])
      { g with ports := (up 0 0).ports.set 1 { Port.initial with outstanding := 2, head := some (.read 0x04123400#30 256 6#3) } }
    (after .setRequester (s (grantAt 0 1#8 grantA (up 0 0)))).slots[0].status = .limit
      ∧ (after .setRequester (s (grantAt 0 1#8 grantA (up 0 0)))).ports[1].outstanding = 3
      ∧ (after .setRequester (s (up 0 0))).slots[0].status = .ok
      ∧ (after .setRequester (s (up 0 0))).ports[1].readLimit = 2 := by decide

/-- R82: a read limit below the outstanding count is refused with LIMIT; so is none at the count. -/
theorem test_set_requester : (after .setRequester (engineAt 0 (slotOf 8#16 [(1, 2#32), (10, 1#32), (14, 1#32)])
    { up 0 0 with ports := (up 0 0).ports.set 1 { Port.initial with outstanding := 2 } })).slots[0].status = .limit
    ∧ (after .setRequester (engineAt 0 (slotOf 8#16 [(1, 2#32), (10, 1#32), (14, 2#32)])
    { up 0 0 with ports := (up 0 0).ports.set 1 { Port.initial with outstanding := 2 } })).slots[0].status = .ok := by decide

/-- R64, R180: an idle port reports read limit 4. -/
theorem test_query_requester : (after .queryRequester (engineAt 0 (slotOf 9#16 []) (up 0 0))).slots[0].result[0] = 0x400#32 := by
  decide

/-- R84: RESUME reports the overflow count that stood before. -/
theorem test_resume : (after .resume (engineAt 0 (slotOf 10#16 [])
    { up 0 0 with ports := (up 0 0).ports.set 0 { Port.initial with overflow := 9 } })).slots[0].result[6] = 0x90000#32 := by decide

/-- R85: RESET-REQUESTER detaches the requester's read and reports one. -/
theorem test_reset_requester : (after .resetRequester (engineAt 0 (slotOf 11#16 [(10, 1#32)])
    (reading 1 0 grantA (up 0 0)))).slots[0].result[0] = 1#32
    ∧ (after .resetRequester (engineAt 0 (slotOf 11#16 [(10, 1#32)])
    (reading 1 0 grantA (up 0 0)))).tags[31] = .waiting (infoA 1 0 true) 64 6400 := by decide

/-- R147: a timeout of 65 ms is refused, 64 ms is taken. -/
theorem test_set_timing : (after .setTiming (engineAt 0 (slotOf 12#16 [(1, 1#32), (15, 65#32)]) (up 0 0))).timing.timeout = 16
    ∧ (after .setTiming (engineAt 0 (slotOf 12#16 [(1, 1#32), (15, 64#32)]) (up 0 0))).timing.timeout = 64 := by decide

/-! ### The window -/

/-- R138: a submission leaves the arguments and joins the order. -/
theorem test_submission : (after (.submission 3 5#32) (up 0 0)).order = [3]
    ∧ (after (.submission 3 5#32) (up 0 0)).slots[3].opcode = 5#16 := by decide

/-- R135, section 11.1: 0x1210 is the first argument word of slot 2. -/
theorem test_argument_write : (after (.hostWindowWrite 0x1210#14 4 0xF#4 7#32) (up 0 0)).slots[2].args[0] = 7#32 := by decide

/-- R139: a CANCEL to an idle slot collides. -/
theorem test_cancel_idle : (after (.cancel 1 0#16) (up 0 0)).notice.status = 0x2000#15
    ∧ (after (.cancel 1 0#16) (up 0 0)).slots[1].collided = true := by decide

/-- The sequence of section 9.8, step 9: enabling a set cause is an event. -/
theorem test_enable_event : (after (.setEnable 0x4000#32) { up 0 0 with
    timing := { timeout := 16, threshold := 4, holdoff := 50 }
    notice := { Notice.initial with status := 0x4000#15, masterEnable := true } }).notice.eventCount = 1 := by decide

/-- R160: turning master enable on with a cause pending and the count at 3 sends the message. -/
theorem test_master_enable : (after (.masterEnable 1#32) { up 0 0 with
    notice := { Notice.initial with status := 1#15, enable := 1#15, eventCount := 3 } }).link.outbound = [.message] := by decide

/-- R59: bits of the second word are indices 32 to 63. -/
theorem test_expired_clear : (after (.expiredSetClear 1 1#32) { up 0 0 with expired := 0x100000001#64 }).expired = 1#64 := by decide

/-! ### Witnesses: what the statements assume can be met

Each theorem is named for its statement and gives a state and operands that meet its hypotheses together, clause by clause,
at a boundary of the clause where it has one. -/

/-- One command waits. -/
theorem test_met_StepRunsFrontCommand : ({ State.reset with pending := [.powerOn] } : State).pending = .powerOn :: [] := rfl

/-- A holdoff timer at 0 is due; with one unit left nothing is. -/
theorem test_met_EmptyQueueLetsTimePass :
    (timerDue { State.reset with notice := { Notice.initial with holdoffTimer := some 0 } })
      ∧ ¬ timerDue { State.reset with notice := { Notice.initial with holdoffTimer := some 1 } } := by
  refine ⟨.inr (.inr (.inr rfl)), ?_⟩
  have hg : ∀ i : GrantIdx, State.reset.grants[i].grant = none := by decide
  have ht : ∀ n : TagNo, State.reset.tags[n] = .free := by decide
  rintro (⟨i, g, _, _, h, _⟩ | ⟨n, _, _, h⟩ | ⟨n, _, h⟩ | h)
  · exact absurd ((hg i).symm.trans h) (by simp)
  · exact absurd ((ht n).symm.trans h) (by simp)
  · exact absurd ((ht n).symm.trans h) (by simp)
  · cases h

/-- The link is DOWN after power-on and UP after training. -/
theorem test_met_TrainingCreditAndLrstRelease : State.reset.link.up = false ∧ (up 0 0).link.up = true := ⟨rfl, rfl⟩

theorem test_met_TeardownReturnsDefaults : (up 0 0).link.up = true := rfl

theorem test_met_NothingReachesThePartWhileDown : State.reset.link.up = false ∧ (up 0 0).link.up = true := ⟨rfl, rfl⟩

/-- One unit of read credit, and none. -/
theorem test_met_MemoryReadSentOnCredit :
    let s := fun credit => { up 0 credit with link := { (up 0 credit).link with outbound := [.memRead 31 0#64 512] } }
    (s 1).link.up = true ∧ (s 1).link.outbound = [.memRead 31 0#64 512] ∧ 1 ≤ (s 1).link.readCredit
      ∧ (s 0).link.readCredit = 0 := by decide

/-- Two units of posted-write credit, and one, with the enable not yet read and read. -/
theorem test_met_MessageSentOnCredit :
    let s := fun credit m => { up credit 0 with link := { (up credit 0).link with outbound := [.message], messaging := m } }
    (s 2 false).link.up = true ∧ (s 2 false).link.outbound = [.message] ∧ (s 2 false).link.messaging = false
      ∧ (s 2 true).link.messaging = true ∧ 2 ≤ (s 2 true).link.postedCredit ∧ (s 1 true).link.postedCredit < 2 := by
  decide

/-- The read of the example, into the grant that admits it. -/
theorem test_met_PassingProbeLeavesCandidate :
    (grantAt 0 1#8 grantA (up 0 0)).lrst = false ∧ (grantAt 0 1#8 grantA (up 0 0)).ports[1].head = none
      ∧ admits (grantAt 0 1#8 grantA (up 0 0)) 1 (wireAccess readA) 0 grantA := by
  unfold admits malformedAccess foundAt
  decide

/-- One access for each check that refuses: HALTED, MALFORMED by page, by length 0 and by label, NOGRANT past the end of a
range, CLOSING and DENIED. -/
theorem test_met_RefusedProbeAnswersAndCaptures :
    let s := grantAt 0 1#8 grantA (up 0 0)
    let halted := { s with ports := s.ports.set 1 { Port.initial with run := .halted } }
    let used := { s with ports := s.ports.set 1 { Port.initial with labels := 0x40#8 } }
    let closing := grantAt 0 1#8 { grantA with phase := .closing .command none } (up 0 0)
    s.lrst = false ∧ s.ports[1].head = none
      ∧ refuses halted 1 (wireAccess readA) .halted none
      ∧ refuses s 1 (wireAccess { readA with addr := 0x04123F80#30 }) .malformed none
      ∧ refuses s 1 (wireAccess { readA with length := 0#10 }) .malformed none
      ∧ refuses used 1 (wireAccess readA) .malformed none
      ∧ refuses s 1 (wireAccess { readA with addr := 0x05000000#30 }) .nogrant none
      ∧ refuses closing 1 (wireAccess readA) .closing (some { index := 0, seq := 1#8 })
      ∧ refuses s 2 (wireAccess readA) .denied (some { index := 0, seq := 1#8 }) := by
  intro s halted used closing
  refine ⟨by decide, by decide, .inl (by decide), .inr (.inl ?_), .inr (.inl ?_), .inr (.inl ?_), .inr (.inr ⟨by decide, ?_, .inl ?_⟩),
    .inr (.inr ⟨by decide, ?_, .inr ⟨0, { grantA with phase := .closing .command none }, ?_, by decide, .inl (by decide)⟩⟩),
    .inr (.inr ⟨by decide, ?_, .inr ⟨0, grantA, ?_, by decide, .inr (by decide)⟩⟩)⟩
  all_goals first | (unfold malformedAccess; decide) | (unfold foundAt; decide) | decide

/-- The example of section 5.3: last-granted 3 and port 3 itself the last to be looked at; tag 31 the last FREE one. -/
theorem test_met_TagGrantIssuesRead :
    let s := headAt 1 (.read 0x04123400#30 256 6#3) (grantAt 0 1#8 grantA { up 0 0 with
      tagLast := 1, tags := Vector.ofFn fun n : TagNo => if n = 31 then .free else .parked 1 100 })
    firstAfter s.tagLast 1 (mayRead s) ∧ s.ports[1].head = some (.read 0x04123400#30 256 6#3) ∧ lowestTag s 31
      ∧ admits s 1 (.read 0x04123400#30 256 6#3) 0 grantA := by
  unfold firstAfter lowestTag admits malformedAccess foundAt
  decide

/-- The queue has one place left. -/
theorem test_met_WriteGrantAcceptsWrite :
    let s := headAt 1 (.write 0x04FFFFFF#30 1 [0#8]) (grantAt 0 1#8 grantA { up 0 0 with
      writeLast := 1, queue := List.replicate 15 (entryA 1) })
    firstAfter s.writeLast 1 (mayWrite s) ∧ s.ports[1].head = some (.write 0x04FFFFFF#30 1 [0#8])
      ∧ admits s 1 (.write 0x04FFFFFF#30 1 [0#8]) 0 grantA := by
  unfold firstAfter admits malformedAccess foundAt
  decide

/-- A candidate whose requester has become HALTED, read and write. -/
theorem test_met_RefusedGrantUsesTurn :
    let h := { Port.initial with run := .halted }
    let r := { up 0 0 with ports := (up 0 0).ports.set 7 { h with head := some (.read 0#30 1 0#3) } }
    let w := { up 0 0 with ports := (up 0 0).ports.set 7 { h with head := some (.write 0#30 1 [0#8]) } }
    r.ports[7].head = some (.read 0#30 1 0#3) ∧ refuses r 7 (.read 0#30 1 0#3) .halted none
      ∧ firstAfter r.tagLast 7 (mayRead r)
      ∧ w.ports[7].head = some (.write 0#30 1 [0#8]) ∧ refuses w 7 (.write 0#30 1 [0#8]) .halted none
      ∧ firstAfter w.writeLast 7 (mayWrite w) := by
  intro h r w
  refine ⟨by decide, .inl (by decide), ?_, by decide, .inl (by decide), ?_⟩
  all_goals (unfold firstAfter; decide)

/-- Exactly the credit that 17 bytes need, and one unit less. -/
theorem test_met_HeadWriteLeavesOnCredit :
    let s := fun credit => { up credit 0 with queue := [entryA 17] }
    (s 3).queue = entryA 17 :: [] ∧ (s 3).link.up = true ∧ 1 + ((entryA 17).length + 15) / 16 ≤ (s 3).link.postedCredit
      ∧ (s 2).link.postedCredit < 1 + ((entryA 17).length + 15) / 16 := by decide

/-- One byte of two. -/
theorem test_met_UnfinishedPartGivesBeat :
    (reading 2 0 grantA (up 0 0)).link.up = true ∧ (reading 2 0 grantA (up 0 0)).tags[31] = .waiting (infoA 2 0 false) 64 6400
      ∧ 1 ≤ ([0#8] : List Byte).length ∧ ([0#8] : List Byte).length ≤ 512
      ∧ (infoA 2 0 false).received + ([0#8] : List Byte).length < (infoA 2 0 false).length := by decide

/-- The last byte of 512. -/
theorem test_met_LastPartRetiresRead :
    (reading 512 511 grantA (up 0 0)).link.up = true
      ∧ (reading 512 511 grantA (up 0 0)).tags[31] = .waiting (infoA 512 511 false) 64 6400
      ∧ 1 ≤ ([0#8] : List Byte).length ∧ ([0#8] : List Byte).length ≤ 512
      ∧ (infoA 512 511 false).received + ([0#8] : List Byte).length = (infoA 512 511 false).length := by decide

/-- Each completion that fails a read: no byte, one too many, and the two error statuses; under a current and under a
previous generation. -/
theorem test_met_FailingPartRetiresWithHosterr :
    (failing (infoA 2 1 false) (.success []) ∧ failing (infoA 2 1 false) (.success [0#8, 0#8])
      ∧ failing (infoA 2 1 false) .unsupported ∧ failing (infoA 2 1 false) .otherError)
    ∧ (reading 2 1 grantA (up 0 0)).link.up = true
      ∧ (reading 2 1 grantA (up 0 0)).tags[31] = .waiting (infoA 2 1 false) 64 6400
      ∧ (reading 2 1 grantA (up 0 0)).grants[0].grant = some { grantA with cur := { grantA.cur with count := 1 } }
      ∧ liveBase { grantA with cur := { grantA.cur with count := 1 } } 0#4 0x0000000180000000#64
    ∧ liveBase { grantA with
        cur := { grantA.cur with number := 1#4 }
        phase := .draining { number := 0#4, length := 4096, hostBase := 0x5000#64, count := 1 } } 0#4 0x5000#64 := by
  unfold failing
  exact ⟨by decide, by decide, by decide, by decide, .inl (by decide), .inr ⟨by decide, _, rfl, rfl, rfl⟩⟩

/-- A PARKED tag whose park period has ended, a FREE one, and the first value above the tags. -/
theorem test_met_ParkedAndStrayParts :
    (tagAt 31 (.parked 1 0) (up 0 0)).tags[31] = .parked 1 0 ∧ (tagAt 31 (.parked 1 0) (up 0 0)).link.up = true
      ∧ (∀ h : 31 < 32, (up 0 0).tags[(⟨31, h⟩ : TagNo)] = .free) ∧ ∀ h : 32 < 32, (up 0 0).tags[(⟨32, h⟩ : TagNo)] = .free := by
  have free : ∀ n : TagNo, (up 0 0).tags[n] = .free := by decide
  exact ⟨by decide, by decide, fun h => free ⟨31, h⟩, fun h => free ⟨32, h⟩⟩

theorem test_met_DeadlineParksTag :
    let s := tagAt 31 (.waiting (infoA 2 1 false) 64 0) (reading 2 1 grantA (up 0 0))
    s.tags[31] = .waiting (infoA 2 1 false) 64 0
      ∧ s.grants[0].grant = some { grantA with cur := { grantA.cur with count := 1 } }
      ∧ liveBase { grantA with cur := { grantA.cur with count := 1 } } 0#4 0x0000000180000000#64 :=
  ⟨by decide, by decide, .inl (by decide)⟩

/-- A lease run down to 0, and one with its whole period left. -/
theorem test_met_LeaseExpiryClosesGrant :
    (grantAt 5 2#8 (spent grantB) (up 0 0)).grants[5].grant = some (spent grantB) ∧ (spent grantB).phase.isClosing = false
      ∧ (spent grantB).lease = .timed .idle 500#16 0 ∧ grantB.phase.isClosing = false
      ∧ grantB.lease = .timed .idle 500#16 50000 := by decide

/-- A timer at 0, with and without an event counted and master enable. -/
theorem test_met_HoldoffExpiryAttempts :
    let s := fun count m => { up 0 0 with
      notice := { Notice.initial with masterEnable := m, eventCount := count, holdoffTimer := some 0 } }
    (s 0 true).notice.holdoffTimer = some 0 ∧ (s 0 true).notice.eventCount = 0 ∧ (s 1 false).notice.masterEnable = false
      ∧ 1 ≤ (s 1 true).notice.eventCount ∧ (s 1 true).notice.masterEnable = true := by decide

/-- The second OPEN of the example of section 1.6. -/
theorem test_met_OpenCreatesGrant :
    let s := engineAt 2 (slotOf 1#16 (openArgs 0x05000000#32 0x400000#32)) (grantAt 0 1#8 grantA (up 0 0))
    atFront s 2 [] 0x0001#16 ∧ openRanges s.slots[2] ∧ suppliedLease s.slots[2] (.timed .idle 500#16 50000)
      ∧ clearOf s none (s.slots[2].args[2].extractLsb' 0 30).toNat s.slots[2].args[3].toNat ∧ lowestIndex s 1 := by
  unfold atFront openRanges suppliedLease clearOf lowestIndex
  decide

/-- A length one page above 256 MiB, the third OPEN of the example, and a full table. -/
theorem test_met_OpenRefusals :
    let s := fun b n => engineAt 2 (slotOf 1#16 (openArgs b n)) (grantAt 0 1#8 grantA (up 0 0))
    let full := { s 0x20000000#32 0x1000#32 with grants := Vector.replicate 64 { seq := 1#8, grant := some grantA } }
    atFront (s 0#32 0#32) 2 [] 0x0001#16
      ∧ ¬ openRanges (s 0x20000000#32 0x10001000#32).slots[2]
      ∧ openRanges (s 0x04F00000#32 0x200000#32).slots[2]
      ∧ suppliedLease (s 0x04F00000#32 0x200000#32).slots[2] (.timed .idle 500#16 50000)
      ∧ ¬ clearOf (s 0x04F00000#32 0x200000#32) none 0x04F00000 0x200000
      ∧ openRanges full.slots[2] ∧ clearOf full none 0x20000000 0x1000 ∧ ∀ i : GrantIdx, full.grants[i].grant ≠ none := by
  unfold atFront openRanges suppliedLease clearOf
  decide

/-- A tag and a lease of kind NONE for grant 0.1. -/
theorem test_met_LeaseOrTagModify :
    let s := engineAt 2 (slotOf 2#16 [(0, 1#32), (1, 0x30#32), (9, 0xC3#32)]) (grantAt 0 1#8 grantA (up 0 0))
    atFront s 2 [] 0x0002#16 ∧ named s s.slots[2] 0 grantA ∧ grantA.phase.isClosing = false ∧ presenceGood s.slots[2] 6
      ∧ ¬ mapsAnew s.slots[2] ∧ leaseAndTag s.slots[2] grantA .untimed 0xC3#32 := by
  unfold atFront named presenceGood mapsAnew leaseAndTag suppliedLease
  decide

/-- A new length of one page for grant 0.1, without traffic and with some. -/
theorem test_met_MappingModify :
    let g := fun n => { grantA with cur := { grantA.cur with count := n } }
    let s := fun n => engineAt 2 (slotOf 2#16 [(0, 1#32), (1, 2#32), (3, 0x1000#32)]) (grantAt 0 1#8 (g n) (up 0 0))
    let new : Generation := { grantA.cur with number := 1#4, length := 4096 }
    atFront (s 1) 2 [] 0x0002#16 ∧ named (s 1) (s 1).slots[2] 0 (g 1) ∧ (g 1).phase = .opened
      ∧ presenceGood (s 1).slots[2] 6 ∧ mapsAnew (s 1).slots[2] ∧ newGeneration (s 1).slots[2] (g 1) new
      ∧ leaseAndTag (s 1).slots[2] (g 1) .untimed 0xA1#32 ∧ lengthClear (s 1) (s 1).slots[2] 0 (g 1) new
      ∧ (g 1).cur.count ≠ 0 ∧ (g 0).cur.count = 0 ∧ named (s 0) (s 0).slots[2] 0 (g 0) := by
  unfold atFront named presenceGood mapsAnew newGeneration leaseAndTag suppliedLease lengthClear clearOf
  intro g s new
  refine ⟨?_, ?_, ?_, ?_, ?_, ?_, ?_, ?_, ?_⟩ <;> decide

/-- Sequence 0, a CLOSING grant, a DRAINING one with a mapping field, an empty presence set, and a length that overlaps. -/
theorem test_met_ModifyRefusals :
    let s := fun (p : Word) g => engineAt 2 (slotOf 2#16 [(0, 1#32), (1, p), (3, 0x01001000#32)])
      (grantAt 0 1#8 g (grantAt 1 1#8 grantB (up 0 0)))
    let old : PrevGeneration := { number := 15#4, length := 4096, hostBase := 0#64, count := 1 }
    let draining := { grantA with phase := .draining old, waiting := some 0 }
    let closing := { grantA with phase := .closing .expired (some old) }
    atFront (s 2#32 grantA) 2 [] 0x0002#16 ∧ staleHandle (up 0 0) (slotOf 2#16 [])
      ∧ named (s 2#32 closing) (s 2#32 closing).slots[2] 0 closing ∧ closing.phase.isClosing = true
      ∧ named (s 2#32 draining) (s 2#32 draining).slots[2] 0 draining ∧ draining.phase.isClosing = false
      ∧ draining.phase ≠ .opened ∧ mapsAnew (s 2#32 draining).slots[2]
      ∧ named (s 0#32 grantA) (s 0#32 grantA).slots[2] 0 grantA ∧ grantA.phase = .opened
      ∧ ¬ modifyGood (s 0#32 grantA).slots[2] grantA
      ∧ modifyGood (s 2#32 grantA).slots[2] grantA ∧ present (s 2#32 grantA).slots[2] 1 = true
      ∧ ¬ clearOf (s 2#32 grantA) (some 0) grantA.localBase.toNat (s 2#32 grantA).slots[2].args[3].toNat := by
  intro s old draining closing
  refine ⟨?_, ?_, ?_, ?_, ?_, ?_, ?_, ?_, ?_, ?_, fun h => absurd h.1.1 ?_, ⟨?_, fun h => absurd h ?_, fun _ =>
    ⟨{ grantA.cur with number := 1#4, length := 0x01001000 }, ?_⟩⟩, ?_, ?_⟩
  all_goals
    first
      | (unfold atFront; decide) | (unfold staleHandle; decide) | (unfold named; decide) | (unfold mapsAnew; decide)
      | (unfold presenceGood; decide) | (unfold newGeneration; decide) | (unfold clearOf; decide) | decide

/-- A grant without traffic, and one with a read in flight, on which another slot waits. -/
theorem test_met_CloseFreesOrWaits :
    let g : Grant := { grantA with
      phase := .draining { number := 15#4, length := 4096, hostBase := 0#64, count := 1 }, waiting := some 0 }
    let s := fun g => engineAt 2 (slotOf 3#16 [(0, 1#32)]) (grantAt 0 1#8 g (up 0 0))
    atFront (s g) 2 [] 0x0003#16 ∧ named (s g) (s g).slots[2] 0 g ∧ g.phase.isClosing = false ∧ g.waiting ≠ some 2
      ∧ noTraffic g = false
      ∧ named (s grantA) (s grantA).slots[2] 0 grantA ∧ grantA.waiting ≠ some 2 ∧ noTraffic grantA = true := by
  unfold atFront named
  decide

/-- A CLOSING grant with and without a waiting slot, and sequence 0. -/
theorem test_met_CloseAdoptsOrIsRefused :
    let g : Option SlotNo → Grant := fun w => { grantA with
      phase := .closing .expired none, cur := { grantA.cur with count := 1 }, waiting := w }
    let s := fun w => engineAt 2 (slotOf 3#16 [(0, 1#32)]) (grantAt 0 1#8 (g w) (up 0 0))
    atFront (s none) 2 [] 0x0003#16 ∧ staleHandle (up 0 0) (slotOf 3#16 [])
      ∧ named (s none) (s none).slots[2] 0 (g none) ∧ (g none).phase = .closing .expired none ∧ (g none).waiting = none
      ∧ named (s (some 0)) (s (some 0)).slots[2] 0 (g (some 0)) ∧ (g (some 0)).waiting ≠ none := by
  unfold atFront named staleHandle
  decide

/-- A renewal with a new period, and a lease of kind NONE. -/
theorem test_met_RenewRestartsLease :
    let s := fun g => engineAt 2 (slotOf 4#16 [(0, 1#32), (8, 65535#32)]) (grantAt 0 1#8 g (up 0 0))
    atFront (s grantB) 2 [] 0x0004#16 ∧ staleHandle (up 0 0) (slotOf 4#16 [])
      ∧ named (s grantA) (s grantA).slots[2] 0 grantA ∧ grantA.lease = .untimed
      ∧ named (s grantB) (s grantB).slots[2] 0 grantB ∧ grantB.phase.isClosing = false
      ∧ grantB.lease = .timed .idle 500#16 50000
      ∧ 65535#16 = (if (s grantB).slots[2].args[8].extractLsb' 0 16 = 0#16 then 500#16
          else (s grantB).slots[2].args[8].extractLsb' 0 16) := by
  unfold atFront named staleHandle
  decide

/-- Index 63 FREE, with each mode and the first value that names none. -/
theorem test_met_QueryOfFreeNoneAndBadMode :
    let s := fun m => engineAt 2 (slotOf 5#16 [(0, 0x3F00#32), (1, m)]) (grantAt 0 1#8 grantA (up 0 0))
    atFront (s 0#32) 2 [] 0x0005#16 ∧ ((s 0#32).slots[2].args[0].extractLsb' 8 6).toFin = (63 : GrantIdx)
      ∧ (s 0#32).slots[2].args[1].extractLsb' 0 8 = 0#8 ∧ (s 0#32).grants[63].grant = none
      ∧ (s 1#32).slots[2].args[1].extractLsb' 0 8 = 1#8
      ∧ (∀ j : GrantIdx, (63 : GrantIdx) ≤ j → (s 1#32).grants[j].grant = none)
      ∧ 2#8 ≤ (s 2#32).slots[2].args[1].extractLsb' 0 8 := by
  unfold atFront
  decide

/-- Mode EXACT at the index of a grant, and mode NEXT from an index below it. -/
theorem test_met_QueryReportsGrant :
    let s := fun i m => engineAt 2 (slotOf 5#16 [(0, i), (1, m)]) (grantAt 63 1#8 grantA (up 0 0))
    atFront (s 0#32 1#32) 2 [] 0x0005#16 ∧ queried (s 0#32 1#32) (s 0#32 1#32).slots[2] 63
      ∧ queried (s 0x3F00#32 0#32) (s 0x3F00#32 0#32).slots[2] 63 ∧ (s 0#32 1#32).grants[63].grant = some grantA := by
  unfold atFront queried
  decide

/-- A halted requester, an address without a grant, a CLOSING grant, a kind not granted, a LOOKUP that passes, and the first
value that names no kind. -/
theorem test_met_LookupAnswersWithoutEffect :
    let s := fun g => engineAt 2 (slotOf 6#16 [(2, 0x053FFFFF#32), (10, 2#32), (11, 1#32)]) (grantAt 1 1#8 g (up 0 0))
    let closing := { grantB with phase := .closing .command none }
    let readOnly := { grantB with cur := { grantB.cur with rights := 1#2 } }
    atFront (s grantB) 2 [] 0x0006#16 ∧ requesterOf (s grantB).slots[2] = 2
      ∧ ((s grantB).slots[2].args[11].extractLsb' 0 8).toNat = kindBit .write
      ∧ (s grantB).slots[2].args[2].extractLsb' 0 30 = 0x053FFFFF#30
      ∧ 2#8 ≤ (slotOf 6#16 [(11, 2#32)]).args[11].extractLsb' 0 8
      ∧ ({ s grantB with ports := (s grantB).ports.set 2 { Port.initial with run := .halted } }).ports[2].run = .halted
      ∧ (s grantB).ports[2].run = .run
      ∧ grantRefuses (s { grantB with localBase := 0#30 }) 2 .write 0x053FFFFF#30 .nogrant none
      ∧ grantRefuses (s closing) 2 .write 0x053FFFFF#30 .closing (some { index := 1, seq := 1#8 })
      ∧ grantRefuses (s readOnly) 2 .write 0x053FFFFF#30 .denied (some { index := 1, seq := 1#8 })
      ∧ foundAt (s grantB) 0x053FFFFF#30 1 grantB ∧ grantB.phase.isClosing = false ∧ allowed grantB 2 .write = true := by
  intro s closing readOnly
  refine ⟨?_, ?_, ?_, ?_, ?_, ?_, ?_, .inl ?_, .inr ⟨1, closing, ?_, ?_, .inl ?_⟩, .inr ⟨1, readOnly, ?_, ?_, .inr ?_⟩, ?_, ?_, ?_⟩
  all_goals first | (unfold atFront; decide) | (unfold foundAt; decide) | decide

/-- An empty set, a set without traffic, and one with a read and a write. -/
theorem test_met_FenceWaitsForSnapshot :
    let s := fun w => engineAt 2 (slotOf 7#16 [(12, w)]) { reading 1 0 grantA (up 0 0) with queue := [entryA 1] }
    atFront (s 0#32) 2 [] 0x0007#16 ∧ (s 0#32).slots[2].args[12].extractLsb' 0 8 = 0#8
      ∧ (s 0x80#32).slots[2].args[12].extractLsb' 0 8 = 0x80#8 ∧ tagsIn (s 0x80#32) 0x80#8 = 0
      ∧ entriesIn (s 0x80#32) 0x80#8 = 0 ∧ (s 3#32).slots[2].args[12].extractLsb' 0 8 = 3#8
      ∧ tagsIn (s 3#32) 3#8 = 1 ∧ entriesIn (s 3#32) 3#8 = 1 := by
  unfold atFront
  decide

/-- Policy HALT and a read limit equal to the outstanding count, without and with an eligible head read; below the count; above
8; and beside an eligible read of another port. -/
theorem test_met_SetRequesterAppliesOrRefuses :
    let s := fun n => engineAt 2 (slotOf 8#16 [(1, 3#32), (10, 7#32), (13, 1#32), (14, n)])
      { up 0 0 with ports := (up 0 0).ports.set 7 { Port.initial with outstanding := 4 } }
    atFront (s 4#32) 2 [] 0x0008#16 ∧ requesterOf (s 4#32).slots[2] = 7
      ∧ FaultPolicy.halt = (if present (s 4#32).slots[2] 0 then
          (if (s 4#32).slots[2].args[13].extractLsb' 0 8 = 0#8 then .carryOn else .halt) else (s 4#32).ports[7].policy)
      ∧ 4 = (if present (s 4#32).slots[2] 1 then ((s 4#32).slots[2].args[14].extractLsb' 0 8).toNat
          else (s 4#32).ports[7].readLimit)
      ∧ requesterGood (s 4#32).slots[2] ∧ (s 4#32).ports[7].outstanding ≤ 4
      ∧ requesterGood (s 3#32).slots[2] ∧ present (s 3#32).slots[2] 1 = true ∧ 3 < (s 3#32).ports[7].outstanding
      ∧ ¬ requesterGood (s 9#32).slots[2]
      ∧ ¬ limitMeetsEligible (s 4#32) (s 4#32).slots[2] 7
      ∧ limitMeetsEligible { s 2#32 with
          ports := (s 2#32).ports.set 7 { Port.initial with outstanding := 2, head := some (.read 0#30 1 0#3) } } (s 2#32).slots[2] 7
      ∧ mayRead (headAt 1 (.read 0#30 1 0#3) (s 4#32)) 1 = true
      ∧ (after .setRequester (headAt 1 (.read 0#30 1 0#3) (s 4#32))).ports[1].head.isSome = true
      ∧ (after .setRequester (headAt 1 (.read 0#30 1 0#3) (s 4#32))).tags[31] = .free := by
  intro s
  refine ⟨?_, ?_, ?_, ?_, ?_, ?_, ?_, ?_, ?_, ?_, ?_, ?_, ?_, ?_, ?_⟩
  all_goals
    first
      | decide | (unfold atFront; decide) | (unfold requesterGood presenceGood; decide)
      | (unfold limitMeetsEligible requesterGood presenceGood; decide)

theorem test_met_QueryRequesterReportsPort :
    atFront (engineAt 2 (slotOf 9#16 [(10, 7#32)]) (up 0 0)) 2 [] 0x0009#16
      ∧ (engineAt 2 (slotOf 9#16 [(10, 7#32)]) (up 0 0)).ports[requesterOf (slotOf 9#16 [(10, 7#32)])] = Port.initial := by
  unfold atFront
  decide

theorem test_met_ResumeEmptiesFaultSlot :
    atFront (engineAt 2 (slotOf 10#16 [(10, 7#32)]) (up 0 0)) 2 [] 0x000A#16
      ∧ requesterOf (slotOf 10#16 [(10, 7#32)]) = 7 := by
  unfold atFront
  decide

theorem test_met_ResetRequesterDetaches :
    atFront (engineAt 2 (slotOf 11#16 [(10, 7#32)]) (up 0 0)) 2 [] 0x000B#16
      ∧ requesterOf (slotOf 11#16 [(10, 7#32)]) = 7 := by
  unfold atFront
  decide

/-- All three parameters at their highest values, and a threshold of 0. -/
theorem test_met_SetTimingAppliesOrRefuses :
    let sl := fun t : Word => slotOf 12#16 [(1, 7#32), (15, 64#32), (16, t), (17, 255#32)]
    atFront (engineAt 2 (sl 255#32) (up 0 0)) 2 [] 0x000C#16
      ∧ timingAfter (sl 255#32) (up 0 0).timing = { timeout := 64, threshold := 255, holdoff := 255 }
      ∧ timingGood (sl 255#32) ∧ ¬ timingGood (sl 0#32) := by
  unfold atFront timingGood presenceGood
  decide

/-- The first opcode above the twelve, and 0. -/
theorem test_met_UnknownOpcodeEndsBadop :
    atFront (engineAt 2 (slotOf 13#16 []) (up 0 0)) 2 [] 13#16 ∧ 0x000C#16 < 13#16 ∧ 13#16 ≠ 0x00FF#16
      ∧ atFront (engineAt 2 (slotOf 0#16 []) (up 0 0)) 2 [] 0#16 ∧ 0#16 ≠ 0x00FF#16 := by
  unfold atFront
  decide

/-- In the state after power-on no event can be taken but an access; with LRST asserted, or a head present, not that. A timer
with one unit left is not due, and a slot with the highest opcode of a command is no BADOP. -/
theorem test_met_EventsOutOfPlaceChangeNothing :
    ({ up 0 0 with lrst := true } : State).lrst = true ∧ (headAt 7 (.read 0#30 1 0#3) (up 0 0)).ports[7].head ≠ none
      ∧ (∀ p : PortNo, mayRead (up 0 0) p = false) ∧ (∀ p : PortNo, mayWrite (up 0 0) p = false)
      ∧ (∀ i : GrantIdx, (up 0 0).grants[i].grant = none) ∧ (∀ n : TagNo, (up 0 0).tags[n] = .free)
      ∧ (up 0 0).notice.holdoffTimer ≠ some 0 ∧ (up 0 0).order = [] ∧ (up 0 0).queue = [] ∧ (up 0 0).link.outbound = []
      ∧ (some 1 : Option Nat) ≠ some 0 ∧ Lease.timed .idle 1#16 1 = .timed .idle 1#16 (0 + 1)
      ∧ 0x0001#16 ≤ (slotOf 12#16 []).opcode ∧ (slotOf 12#16 []).opcode ≤ 0x000C#16 := by
  decide

/-- Slot 3 after power-on is free, and its last argument word stands at 0x137C. -/
theorem test_met_FreeSlotTakesWrites :
    (up 0 0).link.up = true ∧ ¬ busy (up 0 0).slots[3] ∧ (12#32).extractLsb' 0 16 ≠ 0x00FF#16
      ∧ (0x137C#14).toNat = 0x1000 + 0x100 * 3 + 0x10 + 4 * 27 := by
  unfold busy
  decide

theorem test_met_CancelEndsWaitingFence :
    let sl := { Slot.initial with state := .waiting, snapshot := some { tags := 1#32, entries := 0#16 } }
    ({ up 0 0 with slots := (up 0 0).slots.set 3 sl } : State).link.up = true
      ∧ waitsWithFence ({ up 0 0 with slots := (up 0 0).slots.set 3 sl } : State).slots[3] := by
  unfold waitsWithFence
  decide

/-- A PENDING slot; a WAITING one that waits with no FENCE; the last argument word of slot 3; the last identity word, the words
0x0108 and 0x011C, the status word and the last result word of slot 3; undefined offsets at the ends of their ranges; and writes
that are not of one whole word. -/
theorem test_met_CollisionsAreRecorded :
    busy (slotOf 1#16 []) ∧ (12#32).extractLsb' 0 16 ≠ 0x00FF#16
      ∧ ¬ waitsWithFence { Slot.initial with state := .waiting } ∧ (up 0 0).link.up = true
      ∧ (0x137C#14).toNat = 0x1000 + 0x100 * 3 + 0x10 + 4 * 27
      ∧ readOnlyOffset 0x18#14 ∧ readOnlyOffset 0x108#14 ∧ readOnlyOffset 0x11C#14 ∧ readOnlyOffset 0x1304#14
      ∧ readOnlyOffset 0x13FC#14 ∧ undefinedOffset 0x1C#14 ∧ undefinedOffset 0x1FC#14 ∧ undefinedOffset 0x208#14
      ∧ undefinedOffset 0x1400#14 ∧ undefinedOffset 0x130C#14
      ∧ ((0x1301#14).toNat % 4 ≠ 0 ∧ (2 : Nat) ≠ 4 ∧ 0x7#4 ≠ 0xF#4) :=
  ⟨.inl rfl, by decide, fun h => h.2 rfl, rfl, rfl, .inl (by decide), .inr (.inr (.inl (by decide))),
    .inr (.inr (.inr (.inl (by decide)))), .inr (.inr (.inr (.inr ⟨3, .inl (by decide)⟩))),
    .inr (.inr (.inr (.inr ⟨3, .inr (by decide)⟩))), .inl (by decide), .inr (.inl (by decide)), .inr (.inr (.inl (by decide))),
    .inr (.inr (.inr (.inl (by decide)))), .inr (.inr (.inr (.inr ⟨3, by decide⟩))), by decide⟩

theorem test_met_AcknowledgeRemovesCauses : (up 0 0).link.up = true := rfl

theorem test_met_EnableWords :
    (up 0 0).link.up = true ∧ (7#32).extractLsb' 0 15 = (7#32).extractLsb' 0 15 := ⟨rfl, rfl⟩

/-- Master enable turned on with a cause pending and one event counted; and each way in which nothing more happens. -/
theorem test_met_MasterEnableWord :
    let s := fun m e c => { up 0 0 with
      notice := { Notice.initial with status := 1#15, enable := e, masterEnable := m, eventCount := c } }
    (s false 1#15 1).link.up = true ∧ (1#32).getLsbD 0 = true ∧ (s false 1#15 1).notice.masterEnable = false
      ∧ (s false 1#15 1).notice.status &&& (s false 1#15 1).notice.enable ≠ 0#15 ∧ 1 ≤ (s false 1#15 1).notice.eventCount
      ∧ (2#32).getLsbD 0 = false ∧ (s true 1#15 1).notice.masterEnable = true
      ∧ (s false 2#15 1).notice.status &&& (s false 2#15 1).notice.enable = 0#15 ∧ (s false 1#15 0).notice.eventCount = 0 := by
  decide

/-- A lease run down to 0; a clearing write; and a change of the set, by an expiry. -/
theorem test_met_ExpiredSetMembership :
    let s := grantAt 63 1#8 (spent grantB) (up 0 0)
    s.grants[63].grant = some (spent grantB) ∧ (spent grantB).phase.isClosing = false
      ∧ (spent grantB).lease = .timed .idle 500#16 0 ∧ s.link.up = true ∧ (Instr.leaseExpiry 63).wellFormed = true
      ∧ (after (.leaseExpiry 63) s).expired ≠ s.expired := by
  decide

/-- The words of slot 3, reads that are not of one whole word, and the first and last undefined offsets. -/
theorem test_met_HostReads :
    (up 0 0).link.up = true ∧ (0x1300#14).toNat = 0x1000 + 0x100 * 3 ∧ (0x1304#14).toNat = 0x1004 + 0x100 * 3
      ∧ (0x137C#14).toNat = 0x1010 + 0x100 * 3 + 4 * 27 ∧ (0x13FC#14).toNat = 0x1080 + 0x100 * 3 + 4 * 31
      ∧ ((0x1301#14).toNat % 4 ≠ 0 ∧ (2 : Nat) ≠ 4 ∧ 0x7#4 ≠ 0xF#4) ∧ undefinedOffset 0x1C#14 ∧ undefinedOffset 0x3FFC#14 := by
  unfold undefinedOffset
  decide

/-- A slot that enters DONE, and one that leaves it for IDLE at a teardown. -/
theorem test_met_EntryIntoDoneSetsCause :
    let s := engineAt 2 (slotOf 13#16 []) (up 0 0)
    exec .badop s = .next (after .badop s) ∧ s.slots[2].state ≠ .done ∧ (after .badop s).slots[2].state = .done
      ∧ exec .hotReset (after .badop s) = .next (after .hotReset (after .badop s))
      ∧ (after .badop s).slots[2].state ≠ .idle ∧ (after .hotReset (after .badop s)).slots[2].state = .idle :=
  ⟨rfl, by decide, by decide, rfl, by decide, by decide⟩

/-! The invariants: a state with a read in flight under a draining grant, a MODIFY and a FENCE that wait, and a fault stored. -/

/-- A state in the middle of its work, with a command that changes it. -/
def working : State :=
  let old : PrevGeneration := { number := 0#4, length := 4096, hostBase := 0x5000#64, count := 1 }
  let g := { grantB with phase := .draining old, cur := { grantB.cur with number := 1#4 }, waiting := some 0 }
  let read := { infoA 2 1 false with requester := 1 }
  let fault : FaultRecord := refusalRecord (.read 0#30 0 0#3) .malformed none
  { grantAt 0 1#8 g (up 1 1) with
    tags := State.reset.tags.set 31 (.waiting read 64 0)
    ports := State.reset.ports.set 1 { Port.initial with
      run := .halted, policy := .halt, outstanding := 1, labels := 0x40#8, fault := some fault, overflow := 255 }
    slots := (State.reset.slots.set 0 { Slot.initial with state := .waiting, opcode := 2#16 }).set 3
      { Slot.initial with state := .waiting, opcode := 7#16, snapshot := some { tags := 0x80000000#32, entries := 0#16 } }
    notice := { Notice.initial with enable := 0x7FFF#15, eventCount := 255, holdoffTimer := some 1 }
    link := { (up 1 1).link with outbound := [.message, .memRead 31 0x0000000180123400#64 2] }
    pending := [.deadlineExpiry 31] }

theorem test_met_working_steps : step working = .next (after (.deadlineExpiry 31) { working with pending := [] }) := rfl

theorem test_met_StepKeepsTrafficAccounted : TrafficAccounted working := by
  refine ⟨?_, ?_, by decide⟩
  · unfold tagsCarrying entriesCarrying countHeld
    decide +kernel
  · have h : ∀ i : GrantIdx, ∀ g ∈ working.grants[i].grant,
        (∀ p ∈ g.phase.prev, p.number + 1#4 = g.cur.number ∧ 1 ≤ p.count)
          ∧ (g.phase.isClosing = true → g.idleTraffic = false) := by decide
    exact h

theorem test_met_StepKeepsRangesDisjoint : RangesDisjoint working := by
  have h : ∀ i : GrantIdx, ∀ g ∈ working.grants[i].grant, mappingLegal g := by
    unfold mappingLegal
    decide
  have one : ∀ i : GrantIdx, i ≠ 0 → working.grants[i].grant = none := by decide
  refine ⟨h, fun i j hij g k hg hk => ?_⟩
  by_cases hi : i = 0
  · exact absurd ((one j (fun e => hij (hi.trans e.symm))).symm.trans hk) (by simp)
  · exact absurd ((one i hi).symm.trans hg) (by simp)

theorem test_met_StepKeepsSequencesAndLeases :
    SequencesNonzero working ∧ LeasesSound working ∧ CountersBounded working := by
  have h : ∀ i : GrantIdx, ∀ g ∈ working.grants[i].grant,
      (g.lease = .timed .idle 500#16 50000 ∧ g.phase.cause = none) ∧ g.readCount ≤ 4294967295 ∧ g.writeCount ≤ 4294967295 := by
    decide
  refine ⟨?_, fun i g hg => ?_, fun i g hg => (h i g hg).2⟩
  · unfold SequencesNonzero
    decide
  · unfold leaseSound
    rw [(h i g hg).1.1, (h i g hg).1.2]
    decide

theorem test_met_StepKeepsPortsAccounted : PortsAccounted working := by
  unfold PortsAccounted portAccounted
  decide +kernel

theorem test_met_StepKeepsUnitsInRange :
    FaultSlotsSound working ∧ LrstQuiet { State.reset with lrst := true, pending := [.deadlineExpiry 31] } ∧ TagsSound working
      ∧ NoticesSound working := by
  have n : ∀ t ∈ working.notice.holdoffTimer, t ≤ 255 ∧ 1 ≤ working.notice.eventCount := by decide
  have f : ∀ m : TagNo, m ≠ 31 → working.tags[m] = .free := by decide
  refine ⟨?_, ?_, ⟨fun m => ?_, by decide⟩, by decide, by decide, n⟩
  · unfold FaultSlotsSound
    decide
  · unfold LrstQuiet
    decide
  · by_cases hm : m = 31
    · subst hm
      show tagSound (.waiting (infoA 2 1 false) 64 0)
      unfold tagSound
      decide
    · rw [f m hm]
      trivial

theorem test_met_StepKeepsSlotsSound : SlotsSound working := by
  have one : ∀ i : GrantIdx, i ≠ 0 → working.grants[i].grant = none := by decide
  have w : ∀ i : GrantIdx, ∀ g ∈ working.grants[i].grant, g.phase ≠ .opened ∧ g.waiting = some 0 := by decide
  refine ⟨by unfold orderSound; decide, by unfold statusSound; decide, fun k sn h => ?_, ⟨fun i g hg => ?_, ?_⟩, fun k hk => ?_⟩
  · have hk : k = 3 ∧ sn = { tags := 0x80000000#32, entries := 0#16 } := by
      have all : ∀ k : SlotNo, ∀ sn ∈ working.slots[k].snapshot, k = 3 ∧ sn = { tags := 0x80000000#32, entries := 0#16 } := by
        decide
      exact all k sn h
    obtain ⟨rfl, rfl⟩ := hk
    refine ⟨rfl, rfl, fun t ht => ?_, fun n hn => ?_⟩
    · have : t = 31 := by
        revert ht
        revert t
        decide
      subst this
      exact ⟨_, _, _, rfl⟩
    · simp at hn
  · refine ⟨fun ho => absurd ho (w i g hg).1, fun p _ => by rw [(w i g hg).2]; rfl, fun k hk => ?_⟩
    obtain rfl := Option.some.inj ((w i g hg).2.symm.trans hk)
    exact ⟨rfl, rfl⟩
  · intro i j g h k hg hh _ _
    have z : ∀ i : GrantIdx, ∀ g, working.grants[i].grant = some g → i = 0 := fun i g hg => by
      by_contra hi
      exact absurd ((one i hi).symm.trans hg) (by simp)
    rw [z i g hg, z j h hh]
  · have : k = 0 ∨ k = 3 := by
      revert hk
      revert k
      decide
    rcases this with rfl | rfl
    · exact .inr ⟨0, _, rfl, rfl⟩
    · exact .inl rfl

theorem test_met_StepKeepsOutboundSound : OutboundSound working := by
  have o : working.link.outbound = [.message, .memRead 31 0x0000000180123400#64 2] := rfl
  refine ⟨?_, ?_, ?_, ?_, fun _ => by rw [o]; rfl⟩ <;> rw [o]
  · intro a n d h
    simp at h
  · decide
  · decide
  · intro t a n h
    simp only [List.mem_cons, reduceCtorEq, Request.memRead.injEq, List.not_mem_nil, or_false, false_or] at h
    obtain ⟨rfl, rfl, rfl⟩ := h
    exact ⟨_, _, _, rfl, rfl, rfl⟩

/-- A part that is DOWN, with faults counted at a port, to which an access is presented. -/
theorem test_met_StepKeepsDownQuiet :
    DownIsQuiet { State.reset with
      ports := State.reset.ports.set 0 { Port.initial with overflow := 3 }, pending := [.presentAccess 0 readA] } := by
  intro _
  decide

end Sys2Proof.Tests
end

section
/-! PROOF. What a command answers, said once for each of the three shapes that a meaning of Sys2Proof/Machine/Ops.lean gives
it, and how a finished command settles. -/

namespace Sys2Proof.Machine

open Sys2Proof.Safety

/-- A command's answer is its change, moderated. -/
theorem answerNext_next {s x t : State} (h : answerNext s x = .next t) : t = moderate s x := by
  cases h
  rfl

/-- A host access answers its change, moderated, or finds the link DOWN and changes nothing (R165, R167). -/
theorem hostAccess_next {f : State → State} {s t : State} (h : hostAccess f s = .next t) : t = s ∨ t = moderate s (f s) := by
  unfold hostAccess at h
  split at h
  · exact .inr (answerNext_next h)
  · cases h
    exact .inl rfl

/-- The engine executes the slot at the front, or finds another row's opcode, or none, there and changes nothing (R141). -/
theorem engine_next {isRow : BitVec 16 → Bool} {cmd : SlotNo → State → State} {s t : State}
    (h : engine isRow cmd s = .next t) :
    t = s ∨ ∃ k rest, s.order = k :: rest ∧ isRow s.slots[k].opcode = true
      ∧ t = moderate s (cmd k { s with order := rest }) := by
  unfold engine at h
  split at h
  · cases h
    exact .inl rfl
  · rename_i k rest ho
    split at h
    · rename_i hr
      exact .inr ⟨k, rest, ho, hr, answerNext_next h⟩
    · cases h
      exact .inl rfl

/-- A command that finishes with a result changes its slot alone (R136, R142). -/
theorem finish_settles {s : State} {k : SlotNo} {rest : List SlotNo} {ws : List ResultWord} :
    Settles s (executed s k rest { endedSlot s.slots[k] .ok with result := writeResult ws s.slots[k].result }) (1#15 <<< k.val)
      (moderate s (({ s with order := rest } : State).finish k ws)) := by
  apply moderate_settles
  rw [State.finish_eq]
  rfl

end Sys2Proof.Machine
end

section
/-! PROOF. R9 along every step: which commands leave the mapping of each grant as it is, and that the two commands which
place a mapping, OPEN and MODIFY, place a legal one that is clear of every other grant's range. -/

namespace Sys2Proof.Machine

open Sys2Proof.Safety

/-! ### Changes that place no mapping -/

/-- The fields of a grant that R9 and R22 bound: the local base and the mapping of the current generation. -/
def Grant.mapping (g : Grant) : LocalAddr × Nat × HostAddr × Rights × Set8 :=
  (g.localBase, g.cur.length, g.cur.hostBase, g.cur.rights, g.cur.clients)

/-- A record after a change that places no mapping: FREE, or with the mapping that it had. -/
def keepsMapping (r r' : Record) : Prop :=
  ∀ g', r'.grant = some g' → ∃ g, r.grant = some g ∧ g'.mapping = g.mapping

/-- A change of the state that places no mapping at any index. -/
def keepsMappings (s t : State) : Prop :=
  ∀ i : GrantIdx, keepsMapping s.grants[i] t.grants[i]

theorem keepsMapping_refl (r : Record) : keepsMapping r r :=
  fun g hg => ⟨g, hg, rfl⟩

theorem keepsMapping_of_free {r r' : Record} (h : r'.grant = none) : keepsMapping r r' := by
  intro g' hg'
  rw [h] at hg'
  cases hg'

theorem keepsMapping_of_some {r r' : Record} {g g' : Grant} (h : r.grant = some g) (h' : r'.grant = some g')
    (hm : g'.mapping = g.mapping) : keepsMapping r r' := by
  intro x hx
  rw [h'] at hx
  cases hx
  exact ⟨g, h, hm⟩

theorem keepsMappings_of_grants_eq {s t : State} (h : t.grants = s.grants) : keepsMappings s t := by
  intro i
  rw [h]
  exact keepsMapping_refl _

theorem keepsMappings_refl (s : State) : keepsMappings s s :=
  keepsMappings_of_grants_eq rfl

theorem keepsMappings_trans {s t u : State} (h : keepsMappings s t) (h' : keepsMappings t u) : keepsMappings s u := by
  intro i g'' hg''
  obtain ⟨g', hg', hm'⟩ := h' i g'' hg''
  obtain ⟨g, hg, hm⟩ := h i g' hg'
  exact ⟨g, hg, hm'.trans hm⟩

/-- A change that leaves every index FREE places no mapping. -/
theorem keepsMappings_of_free {s t : State} (h : ∀ i : GrantIdx, t.grants[i].grant = none) : keepsMappings s t :=
  fun i => keepsMapping_of_free (h i)

theorem keepsMappings_of_set {s t : State} {i : GrantIdx} {r : Record} (h : t.grants = s.grants.set i r)
    (hr : keepsMapping s.grants[i] r) : keepsMappings s t := by
  intro j
  have hj : t.grants[j] = if i = j then r else s.grants[j] := by
    rw [h]
    exact State.setRecord_get i j r s
  rw [hj]
  split
  · rename_i e
    rw [← e]
    exact hr
  · exact keepsMapping_refl _

theorem keepsMappings_ite {c : Prop} [Decidable c] {s x y : State} (hx : keepsMappings s x) (hy : keepsMappings s y) :
    keepsMappings s (if c then x else y) := by
  split
  · exact hx
  · exact hy

theorem keepsMappings_next {s x t : State} (h : (.next x : Host.Outcome State Fault Refusal) = .next t)
    (hx : keepsMappings s x) : keepsMappings s t := by
  cases h
  exact hx

theorem keepsMappings_answerNext {s x t : State} (h : answerNext s x = .next t) (hx : keepsMappings s x) :
    keepsMappings s t := by
  rw [answerNext_next h]
  exact keepsMappings_trans hx (keepsMappings_of_grants_eq (moderate_grants s x))

/-! ### The shared operations -/

theorem keepsMappings_setGrant {s : State} {i : GrantIdx} {g g' : Grant} (hg : s.grants[i].grant = some g)
    (hm : g'.mapping = g.mapping) : keepsMappings s (s.setGrant i g') :=
  keepsMappings_of_set rfl (keepsMapping_of_some hg rfl hm)

theorem keepsMappings_freeGrant (i : GrantIdx) (s : State) : keepsMappings s (s.freeGrant i) := by
  cases hg : s.grants[i].grant with
  | none =>
    unfold State.freeGrant
    rw [hg]
    exact keepsMappings_of_grants_eq rfl
  | some g =>
    rw [State.freeGrant_eq hg]
    exact keepsMappings_of_set rfl (keepsMapping_of_free rfl)

/-- The fall of a count frees the record or keeps its mapping (R31). -/
theorem keepsMapping_fallOutcome (r : Record) (n : GenNo) : keepsMapping r (fallOutcome r n).1 := by
  unfold fallOutcome
  split
  · exact keepsMapping_refl r
  · rename_i g hg
    have kept : ∀ {g'}, g'.mapping = g.mapping → keepsMapping r { r with grant := some g' } :=
      fun hm => keepsMapping_of_some hg rfl hm
    split
    · split
      · split
        · exact keepsMapping_of_free rfl
        · exact kept rfl
      · exact kept rfl
    · split
      · split
        · exact keepsMapping_refl r
        · split
          · exact kept rfl
          · exact kept rfl
      · split
        · exact keepsMapping_refl r
        · split
          · split
            · exact keepsMapping_of_free rfl
            · exact kept rfl
          · exact kept rfl
      · exact keepsMapping_refl r

theorem keepsMappings_fall (i : GrantIdx) (n : GenNo) (s : State) : keepsMappings s (s.fall i n) := by
  rw [State.fall_eq]
  exact keepsMappings_of_set rfl (keepsMapping_fallOutcome _ n)

/-- Of the parts of a retirement only the fall of the count touches the grants (R103). -/
theorem keepsMappings_retire (n : TagNo) (r : ReadInfo) (res : Result) (e : TagEntry) (s : State) :
    keepsMappings s (s.retire n r res e) := by
  have h : (s.retire n r res e).grants = ((s.endRead r res).fall r.index r.gen).grants := by
    unfold State.retire
    rw [State.withdraw_eq]
    simp
  exact keepsMappings_trans
    (keepsMappings_trans (keepsMappings_of_grants_eq (State.endRead_grants r res s)) (keepsMappings_fall _ _ _))
    (keepsMappings_of_grants_eq h)

theorem keepsMappings_teardown (s : State) : keepsMappings s s.teardown := by
  apply keepsMappings_of_free
  intro i
  have h : s.teardown.grants[i] = s.grants[i].tornDown := by simp [State.teardown]
  rw [h]
  unfold Record.tornDown
  split
  · rfl
  · rename_i hg
    simpa using hg

theorem keepsMappings_leaveUp (s : State) : keepsMappings s s.leaveUp :=
  keepsMappings_trans (keepsMappings_teardown s) (keepsMappings_of_grants_eq rfl)

/-! ### The card side -/

theorem keepsMappings_grantRead (p : PortNo) (n : TagNo) (a : LocalAddr) (len : Nat) (l : Label) (s : State) :
    keepsMappings s (s.grantRead p n a len l) := by
  unfold State.grantRead
  split
  · exact keepsMappings_of_grants_eq (by simp)
  · split
    · rename_i g hg
      exact keepsMappings_setGrant hg rfl
    · exact keepsMappings_of_grants_eq rfl

theorem keepsMappings_tagGrant (s : State) : keepsMappings s s.tagGrant := by
  unfold State.tagGrant
  split
  · exact keepsMappings_of_grants_eq rfl
  · rename_i p _
    split
    · exact keepsMappings_trans (keepsMappings_grantRead p _ _ _ _ { s with tagLast := p })
        (keepsMappings_of_grants_eq (moderate_grants _ _))
    · exact keepsMappings_of_grants_eq rfl

theorem keepsMappings_grantsBefore (k : SlotNo) : ∀ (n : Nat) (s : State), keepsMappings s (s.grantsBefore k n)
  | 0, s => keepsMappings_of_grants_eq rfl
  | n + 1, s => by
    unfold State.grantsBefore
    split
    · exact keepsMappings_trans (keepsMappings_tagGrant s) (keepsMappings_grantsBefore k n _)
    · exact keepsMappings_of_grants_eq rfl

theorem keepsMappings_grantWrite (p : PortNo) (a : LocalAddr) (len : Nat) (d : List Byte) (s : State) :
    keepsMappings s (s.grantWrite p a len d) := by
  unfold State.grantWrite
  split
  · exact keepsMappings_of_grants_eq (by simp)
  · split
    · rename_i g hg
      exact keepsMappings_setGrant hg rfl
    · exact keepsMappings_of_grants_eq rfl

theorem keepsMappings_takePart (n : TagNo) (part : Part) (s : State) : keepsMappings s (s.takePart n part) := by
  unfold State.takePart
  split
  · rename_i r i rem _
    unfold State.partOnWaiting
    split
    · exact keepsMappings_retire _ _ _ _ _
    · rename_i data
      have hb : keepsMappings s (s.takeBytes n r i rem data) := keepsMappings_of_grants_eq (by simp)
      dsimp only
      split
      · exact keepsMappings_retire _ _ _ _ _
      · split
        · exact keepsMappings_trans hb (keepsMappings_retire _ _ _ _ _)
        · exact hb
  · exact keepsMappings_of_grants_eq rfl
  · exact keepsMappings_of_grants_eq rfl

/-! ### Time and the engine's commands -/

theorem keepsMappings_tick (s : State) : keepsMappings s s.tick := by
  unfold State.tick
  split
  · exact keepsMappings_of_grants_eq rfl
  · intro i
    have hi : (Vector.ofFn fun j : GrantIdx => s.grants[j].tick)[i] = s.grants[i].tick := by simp
    rw [hi]
    unfold Record.tick
    split
    · rename_i g hg
      split
      · exact keepsMapping_of_some hg rfl rfl
      · exact keepsMapping_refl _
    · exact keepsMapping_refl _

/-- The closing of a grant, by a CLOSE or by an expiry, keeps its mapping until it is freed (R4, R56). -/
theorem keepsMappings_beginClose {k : SlotNo} {h : Handle} {g : Grant} {s : State} (hg : s.grants[h.index].grant = some g) :
    keepsMappings s (s.beginClose k h g) := by
  have hc : keepsMappings s ((s.setGrant h.index g.closed).report g.waiting .overtaken) :=
    keepsMappings_trans (keepsMappings_setGrant (g' := g.closed) hg rfl) (keepsMappings_of_grants_eq (by simp))
  unfold State.beginClose
  dsimp only
  split
  · exact keepsMappings_trans hc (keepsMappings_trans (keepsMappings_freeGrant h.index _) (keepsMappings_of_grants_eq rfl))
  · have hg' : ((s.setGrant h.index g.closed).report g.waiting .overtaken).grants[h.index].grant = some g.closed := by
      rw [State.report_grants, State.setGrant_get, if_pos rfl]
    have hw := keepsMappings_setGrant (g' := { g.closed with waiting := some k }) hg' rfl
    exact keepsMappings_trans hc (keepsMappings_trans hw (keepsMappings_of_grants_eq rfl))

theorem State.byHandle_grant {s : State} {h : Handle} {g : Grant} (hb : s.byHandle h = some g) :
    s.grants[h.index].grant = some g := by
  unfold State.byHandle at hb
  split at hb
  · cases hb
  · exact hb

theorem keepsMappings_cmdClose (k : SlotNo) (s : State) : keepsMappings s (cmdClose k s) := by
  unfold cmdClose
  dsimp only
  split
  · exact keepsMappings_of_grants_eq rfl
  · rename_i g hb
    have hg := State.byHandle_grant hb
    split
    · split
      · exact keepsMappings_of_grants_eq rfl
      · exact keepsMappings_setGrant hg rfl
    · exact keepsMappings_beginClose hg

theorem keepsMappings_cmdRenew (k : SlotNo) (s : State) : keepsMappings s (cmdRenew k s) := by
  unfold cmdRenew
  dsimp only
  split
  · exact keepsMappings_of_grants_eq rfl
  · rename_i g hb
    split
    · exact keepsMappings_of_grants_eq rfl
    · exact keepsMappings_setGrant (State.byHandle_grant hb) rfl

theorem keepsMappings_leaseExpiry {i : GrantIdx} {s t : State} (h : execLeaseExpiry i s = .next t) : keepsMappings s t := by
  unfold execLeaseExpiry at h
  split at h
  · exact keepsMappings_next h (keepsMappings_refl s)
  · rename_i g hg
    split at h
    · refine keepsMappings_answerNext h ?_
      have hc : keepsMappings s (((s.setGrant i g.expired).report g.waiting .overtaken).setCauses causeGrantExpired) :=
        keepsMappings_trans (keepsMappings_setGrant (g' := g.expired) hg rfl) (keepsMappings_of_grants_eq (by simp))
      split
      · exact keepsMappings_trans hc (keepsMappings_freeGrant i _)
      · exact hc
    · exact keepsMappings_next h (keepsMappings_refl s)

/-! ### Every command but OPEN and MODIFY -/

theorem keepsMappings_hostAccess {f : State → State} {s t : State} (h : hostAccess f s = .next t)
    (hf : (f s).grants = s.grants) : keepsMappings s t := by
  obtain rfl | rfl := hostAccess_next h
  · exact keepsMappings_of_grants_eq rfl
  · exact keepsMappings_of_grants_eq ((moderate_grants _ _).trans hf)

theorem keepsMappings_engine {isRow : BitVec 16 → Bool} {cmd : SlotNo → State → State} {s t : State}
    (h : engine isRow cmd s = .next t) (hc : ∀ k s, keepsMappings s (cmd k s)) : keepsMappings s t := by
  obtain rfl | ⟨k, rest, -, -, rfl⟩ := engine_next h
  · exact keepsMappings_of_grants_eq rfl
  · exact keepsMappings_trans (hc k { s with order := rest }) (keepsMappings_of_grants_eq (moderate_grants _ _))

theorem keepsMappings_engine_frame {isRow : BitVec 16 → Bool} {cmd : SlotNo → State → State} {s t : State}
    (h : engine isRow cmd s = .next t) (hc : ∀ k s, (cmd k s).grants = s.grants) : keepsMappings s t :=
  keepsMappings_engine h fun k s => keepsMappings_of_grants_eq (hc k s)

theorem keepsMappings_writeGrant {s t : State} (h : execWriteGrant s = .next t) : keepsMappings s t := by
  unfold execWriteGrant at h
  split at h
  · exact keepsMappings_next h (keepsMappings_refl s)
  · rename_i p _
    split at h
    · exact keepsMappings_answerNext h (keepsMappings_grantWrite p _ _ _ { s with writeLast := p })
    · exact keepsMappings_next h (keepsMappings_refl s)

theorem keepsMappings_writeLeaving {s t : State} (h : execWriteLeaving s = .next t) : keepsMappings s t := by
  unfold execWriteLeaving at h
  split at h
  · exact keepsMappings_next h (keepsMappings_refl s)
  · split at h
    · refine keepsMappings_answerNext h
        (keepsMappings_trans ?_ (keepsMappings_of_grants_eq (State.entryLeaves_grants _)))
      exact keepsMappings_fall _ _ _
    · exact keepsMappings_next h (keepsMappings_refl s)

theorem keepsMappings_completionPart {n : Nat} {c : Completion} {s t : State} (h : execCompletionPart n c s = .next t) :
    keepsMappings s t := by
  unfold execCompletionPart at h
  split at h
  · refine keepsMappings_answerNext h ?_
    split
    · exact keepsMappings_takePart _ _ s
    · exact keepsMappings_of_grants_eq rfl
  · exact keepsMappings_next h (keepsMappings_refl s)

theorem keepsMappings_deadlineExpiry {n : TagNo} {s t : State} (h : execDeadlineExpiry n s = .next t) :
    keepsMappings s t := by
  unfold execDeadlineExpiry at h
  split at h
  · exact keepsMappings_answerNext h (keepsMappings_retire _ _ _ _ s)
  · exact keepsMappings_next h (keepsMappings_refl s)

theorem keepsMappings_presentAccess {p : PortNo} {a : Presented} {s t : State} (h : execPresentAccess p a s = .next t) :
    keepsMappings s t := by
  unfold execPresentAccess at h
  split at h
  · exact keepsMappings_next h (keepsMappings_refl s)
  · exact keepsMappings_answerNext h (keepsMappings_of_grants_eq (State.probeHead_grants p _ _))

theorem keepsMappings_parkPeriodEnd {n : TagNo} {s t : State} (h : execParkPeriodEnd n s = .next t) :
    keepsMappings s t := by
  unfold execParkPeriodEnd at h
  split at h
  · exact keepsMappings_next h (keepsMappings_of_grants_eq rfl)
  · exact keepsMappings_next h (keepsMappings_refl s)

theorem keepsMappings_holdoffExpiry {s t : State} (h : execHoldoffExpiry s = .next t) : keepsMappings s t := by
  unfold execHoldoffExpiry at h
  split at h
  · exact keepsMappings_next h
      (keepsMappings_ite (keepsMappings_of_grants_eq (State.sendAttempt_grants _)) (keepsMappings_of_grants_eq rfl))
  · exact keepsMappings_next h (keepsMappings_refl s)

theorem keepsMappings_setRequester {s t : State} (h : execSetRequester s = .next t) : keepsMappings s t := by
  unfold execSetRequester at h
  refine keepsMappings_trans ?_ (keepsMappings_engine_frame h cmdSetRequester_grants)
  split
  · exact keepsMappings_refl s
  · exact keepsMappings_grantsBefore _ 8 s

/-- The mapping of a grant comes from OPEN or from MODIFY: every other command frees grants or keeps their mappings. -/
theorem keepsMappings_exec {c : Instr} {s t : State} (ho : c ≠ .openGrant) (hm : c ≠ .modify) (h : exec c s = .next t) :
    keepsMappings s t := by
  cases c with dsimp only [exec] at h
  | openGrant => exact absurd rfl ho
  | modify => exact absurd rfl hm
  | powerOn => exact keepsMappings_next h (keepsMappings_of_free fun i => by simp [State.reset, Record.initial])
  | linkLost | hotReset =>
    exact keepsMappings_next h (keepsMappings_ite (keepsMappings_leaveUp s) (keepsMappings_refl s))
  | functionReset => exact keepsMappings_next h (keepsMappings_ite (keepsMappings_teardown s) (keepsMappings_refl s))
  | trainingComplete =>
    exact keepsMappings_next h (keepsMappings_ite (keepsMappings_refl s) (keepsMappings_of_grants_eq rfl))
  | creditGrant =>
    exact keepsMappings_next h (keepsMappings_ite (keepsMappings_of_grants_eq rfl) (keepsMappings_refl s))
  | lrstAssertion =>
    exact keepsMappings_next h
      (keepsMappings_of_grants_eq (foldl_keeps _ State.grants State.cleanRequester_grants _ s))
  | lrstDeassertion => exact keepsMappings_next h (keepsMappings_of_grants_eq rfl)
  | presentAccess => exact keepsMappings_presentAccess h
  | tagGrant => exact keepsMappings_next h (keepsMappings_tagGrant s)
  | writeGrant => exact keepsMappings_writeGrant h
  | writeLeaving => exact keepsMappings_writeLeaving h
  | memoryReadSend =>
    refine keepsMappings_next h (keepsMappings_of_grants_eq ?_)
    (repeat' split) <;> rfl
  | messageSend =>
    refine keepsMappings_next h (keepsMappings_of_grants_eq ?_)
    (repeat' split) <;> rfl
  | completionPart => exact keepsMappings_completionPart h
  | deadlineExpiry => exact keepsMappings_deadlineExpiry h
  | parkPeriodEnd => exact keepsMappings_parkPeriodEnd h
  | leaseExpiry => exact keepsMappings_leaseExpiry h
  | holdoffExpiry => exact keepsMappings_holdoffExpiry h
  | close => exact keepsMappings_engine h keepsMappings_cmdClose
  | renew => exact keepsMappings_engine h keepsMappings_cmdRenew
  | query => exact keepsMappings_engine_frame h cmdQuery_grants
  | lookup => exact keepsMappings_engine_frame h cmdLookup_grants
  | fence => exact keepsMappings_engine_frame h cmdFence_grants
  | setRequester => exact keepsMappings_setRequester h
  | queryRequester => exact keepsMappings_engine_frame h cmdQueryRequester_grants
  | resume => exact keepsMappings_engine_frame h cmdResume_grants
  | resetRequester => exact keepsMappings_engine_frame h cmdResetRequester_grants
  | setTiming => exact keepsMappings_engine_frame h cmdSetTiming_grants
  | badop => exact keepsMappings_engine_frame h cmdBadop_grants
  | submission k v => exact keepsMappings_hostAccess h (State.writeSubmit_grants k v s)
  | cancel k u => exact keepsMappings_hostAccess h (State.writeSubmit_grants k _ s)
  | hostWindowWrite o w e v =>
    refine keepsMappings_hostAccess h ?_
    split
    · exact State.writeWord_grants o v s
    · rfl
  | acknowledge | enable | setEnable | clearEnable => exact keepsMappings_hostAccess h rfl
  | masterEnable v => exact keepsMappings_hostAccess h (State.writeMasterEnable_grants v s)
  | expiredSetClear w v => exact keepsMappings_hostAccess h rfl

/-! ### Ranges and mappings -/

theorem rangesOverlap_eq_false {b₁ l₁ b₂ l₂ : Nat} :
    rangesOverlap b₁ l₁ b₂ l₂ = false ↔ b₂ + l₂ ≤ b₁ ∨ b₁ + l₁ ≤ b₂ := by
  unfold rangesOverlap
  simp only [Bool.and_eq_false_iff, decide_eq_false_iff_not, Nat.not_lt]

/-- R9 for what is left after a change that places no mapping. -/
theorem rangesDisjoint_of_keepsMappings {s t : State} (h : RangesDisjoint s) (hk : keepsMappings s t) : RangesDisjoint t := by
  obtain ⟨hlegal, hdisj⟩ := h
  constructor
  · intro i g' hg'
    obtain ⟨g, hg, hm⟩ := hk i g' hg'
    have hl := hlegal i g hg
    simp only [Grant.mapping, Prod.mk.injEq] at hm
    obtain ⟨hb, hn, hh, hr, hc⟩ := hm
    unfold mappingLegal at hl ⊢
    rwa [hb, hn, hh, hr, hc]
  · intro i j hij g' h' hg' hh'
    obtain ⟨g, hg, hm⟩ := hk i g' hg'
    obtain ⟨h, hh, hm'⟩ := hk j h' hh'
    have hd := hdisj i j hij g h hg hh
    simp only [Grant.mapping, Prod.mk.injEq] at hm hm'
    obtain ⟨hb, hn, -⟩ := hm
    obtain ⟨hb', hn', -⟩ := hm'
    rwa [hb, hn, hb', hn']

theorem rangesDisjoint_of_grants_eq {s t : State} (h : RangesDisjoint s) (hg : t.grants = s.grants) : RangesDisjoint t :=
  rangesDisjoint_of_keepsMappings h (keepsMappings_of_grants_eq hg)

theorem rangesDisjoint_finish {s : State} (h : RangesDisjoint s) (k : SlotNo) (ws : List ResultWord) :
    RangesDisjoint (s.finish k ws) :=
  rangesDisjoint_of_grants_eq h (State.finish_grants k ws s)

theorem rangesDisjoint_wait {s : State} (h : RangesDisjoint s) (k : SlotNo) (ws : List ResultWord) :
    RangesDisjoint (s.wait k ws) :=
  rangesDisjoint_of_grants_eq h (State.wait_grants k ws s)

/-- The range of a grant is clear of all the others. -/
theorem clearOf_of_rangesDisjoint {s : State} {i : GrantIdx} {g : Grant} (h : RangesDisjoint s)
    (hg : s.grants[i].grant = some g) : clearOf s (some i) g.localBase.toNat g.cur.length := by
  intro j
  by_cases hij : i = j
  · exact .inl (by rw [hij])
  · right
    cases hj : s.grants[j].grant with
    | none => rfl
    | some g' =>
      have hd := rangesOverlap_eq_false.mp (h.2 i j hij g g' hg hj)
      simp only [Option.all_some, Bool.or_eq_true, decide_eq_true_eq]
      exact hd.symm

/-- A range that is clear of the others is disjoint from that of the grant at another index (R10). -/
theorem disjoint_of_clearOf {s : State} {i j : GrantIdx} {base len : Nat} {g : Grant} (h : clearOf s (some i) base len)
    (hij : i ≠ j) (hg : s.grants[j].grant = some g) :
    base + len ≤ g.localBase.toNat ∨ g.localBase.toNat + g.cur.length ≤ base := by
  obtain he | hc := h j
  · exact absurd (Option.some.inj he) hij
  · rw [hg] at hc
    simpa using hc

/-- A legal mapping placed on a range that is clear of the other grants keeps R9. -/
theorem rangesDisjoint_setGrant {s : State} {i : GrantIdx} {g : Grant} (h : RangesDisjoint s) (hl : mappingLegal g)
    (hc : clearOf s (some i) g.localBase.toNat g.cur.length) : RangesDisjoint (s.setGrant i g) := by
  have hi : ∀ g', (s.setGrant i g).grants[i].grant = some g' → g' = g := by
    intro g' hg'
    rw [State.setGrant_get, if_pos rfl] at hg'
    exact (Option.some.inj hg').symm
  have hne : ∀ j, i ≠ j → (s.setGrant i g).grants[j] = s.grants[j] := by
    intro j hij
    rw [State.setGrant_get, if_neg hij]
  constructor
  · intro j g' hg'
    by_cases hij : i = j
    · subst hij
      rwa [hi g' hg']
    · rw [hne j hij] at hg'
      exact h.1 j g' hg'
  · intro j k hjk x y hx hy
    rw [rangesOverlap_eq_false]
    by_cases hij : i = j
    · subst hij
      rw [hne k hjk] at hy
      rw [hi x hx]
      exact (disjoint_of_clearOf hc hjk hy).symm
    · rw [hne j hij] at hx
      by_cases hik : i = k
      · subst hik
        rw [hi y hy]
        exact disjoint_of_clearOf hc hij hx
      · rw [hne k hik] at hy
        exact rangesOverlap_eq_false.mp (h.2 j k hjk x y hx hy)

/-! ### OPEN and MODIFY -/

/-- OPEN describes a grant only from arguments in range (R22). -/
theorem Slot.openedGrant_legal {sl : Slot} {g : Grant} (h : sl.openedGrant = some g) : mappingLegal g := by
  by_cases ha : openRanges sl ∧ ∃ l, suppliedLease sl l
  · obtain ⟨hr, l, hl⟩ := ha
    rw [Slot.openedGrant_some hr hl] at h
    cases h
    obtain ⟨hb, hn, hmin, hmax, hend, hh, hhe, -, hrights, hclients⟩ := hr
    exact ⟨hb, hn, hmin, hmax, hend, hh, hhe, hrights, hclients⟩
  · rw [Slot.openedGrant_none ha] at h
    cases h

theorem rangesDisjoint_cmdOpen (k : SlotNo) {s : State} (h : RangesDisjoint s) : RangesDisjoint (cmdOpen k s) := by
  unfold cmdOpen
  split
  · exact h
  · rename_i g hg
    split
    · exact h
    · rename_i hov
      have hclear := (State.overlaps_iff s none _ _).mp (Bool.eq_false_iff.mpr hov)
      split
      · exact h
      · rename_i i _
        have hclear' : clearOf s (some i) g.localBase.toNat g.cur.length := fun j => (hclear j).imp (fun e => nomatch e) id
        exact rangesDisjoint_finish (rangesDisjoint_setGrant h (Slot.openedGrant_legal hg) hclear') k _

/-- A new generation is legal where the one that it replaces is: each field is supplied and in range, or kept (R37, R40). -/
theorem mappingLegal_of_newGeneration {sl : Slot} {g g' : Grant} (h : mappingLegal g)
    (hn : newGeneration sl g g'.cur) (hb : g'.localBase = g.localBase) : mappingLegal g' := by
  obtain ⟨hbase, hlen, hmin, hmax, hend, hhost, -, hrights, hclients⟩ := h
  obtain ⟨-, -, hl, hh, hr, hc, phost, plen, hsum, prights, pclients⟩ := hn
  have length_legal : g'.cur.length % 4096 = 0 ∧ 4096 ≤ g'.cur.length ∧ g'.cur.length ≤ 268435456
      ∧ g.localBase.toNat + g'.cur.length ≤ 0x40000000 := by
    by_cases p : present sl 1 = true
    · exact plen p
    · rw [hl, if_neg p]
      exact ⟨hlen, hmin, hmax, hend⟩
  have host_legal : g'.cur.hostBase.toNat % 4096 = 0 := by
    by_cases p : present sl 0 = true
    · exact phost p
    · rwa [hh, if_neg p]
  have rights_legal : g'.cur.rights ≠ 0#2 := by
    by_cases p : present sl 2 = true
    · exact (prights p).2
    · rwa [hr, if_neg p]
  have clients_legal : g'.cur.clients ≠ 0#8 := by
    by_cases p : present sl 3 = true
    · exact pclients p
    · rwa [hc, if_neg p]
  obtain ⟨hlen', hmin', hmax', hend'⟩ := length_legal
  unfold mappingLegal
  rw [hb]
  exact ⟨hbase, hlen', hmin', hmax', hend', host_legal, hsum, rights_legal, clients_legal⟩

/-- A mapping MODIFY whose new length, if any, is clear of the other grants (R38). -/
theorem rangesDisjoint_remap {s : State} {k : SlotNo} {hd : Handle} {g : Grant} (h : RangesDisjoint s)
    (hg : s.grants[hd.index].grant = some g)
    (hclear : present s.slots[k] 1 = true → clearOf s (some hd.index) g.localBase.toNat s.slots[k].length) :
    RangesDisjoint (s.remap k hd g) := by
  unfold State.remap
  split
  · rename_i n l hn _
    have hgen := Slot.nextGeneration_iff.mp hn
    have hclear' : clearOf s (some hd.index) g.localBase.toNat n.length := by
      obtain ⟨-, -, hl, -⟩ := hgen
      by_cases p : present s.slots[k] 1 = true
      · rw [hl, if_pos p]
        exact hclear p
      · rw [hl, if_neg p]
        exact clearOf_of_rangesDisjoint h hg
    have placed : ∀ g', g'.cur = n → g'.localBase = g.localBase → RangesDisjoint (s.setGrant hd.index g') := by
      intro g' hcur hb
      exact rangesDisjoint_setGrant h (mappingLegal_of_newGeneration (h.1 _ g hg) (by rwa [hcur]) hb) (by rwa [hcur, hb])
    dsimp only
    split
    · refine rangesDisjoint_finish (placed _ ?_ ?_) k _ <;> rfl
    · refine rangesDisjoint_wait (placed _ ?_ ?_) k _ <;> rfl
  · exact h

theorem keepsMappings_relabel {s : State} {k : SlotNo} {hd : Handle} {g : Grant} (hg : s.grants[hd.index].grant = some g) :
    keepsMappings s (s.relabel k hd g) := by
  unfold State.relabel
  split
  · exact keepsMappings_of_grants_eq rfl
  · exact keepsMappings_setGrant hg rfl

theorem rangesDisjoint_cmdModify (k : SlotNo) {s : State} (h : RangesDisjoint s) : RangesDisjoint (cmdModify k s) := by
  unfold cmdModify
  dsimp only
  split
  · exact h
  · rename_i g hb
    have hg := State.byHandle_grant hb
    split
    · exact h
    split
    · exact h
    split
    · exact h
    split
    · exact h
    rename_i hov
    split
    · refine rangesDisjoint_remap h hg fun hp => ?_
      rw [← State.overlaps_iff, Bool.eq_false_iff]
      exact fun ho => hov ⟨hp, ho⟩
    · exact rangesDisjoint_of_keepsMappings h (keepsMappings_relabel hg)

/-! ### The step -/

theorem rangesDisjoint_engine {isRow : BitVec 16 → Bool} {cmd : SlotNo → State → State} {s t : State} (h : RangesDisjoint s)
    (hc : ∀ k {s}, RangesDisjoint s → RangesDisjoint (cmd k s)) (he : engine isRow cmd s = .next t) : RangesDisjoint t := by
  obtain rfl | ⟨k, rest, -, -, rfl⟩ := engine_next he
  · exact h
  · exact rangesDisjoint_of_grants_eq (hc k (s := { s with order := rest }) h) (moderate_grants _ _)

theorem rangesDisjoint_exec {c : Instr} {s t : State} (h : RangesDisjoint s) (he : exec c s = .next t) : RangesDisjoint t := by
  by_cases ho : c = .openGrant
  · subst ho
    exact rangesDisjoint_engine (isRow := (· == 0x0001#16)) h rangesDisjoint_cmdOpen he
  by_cases hm : c = .modify
  · subst hm
    exact rangesDisjoint_engine (isRow := (· == 0x0002#16)) h rangesDisjoint_cmdModify he
  exact rangesDisjoint_of_keepsMappings h (keepsMappings_exec ho hm he)

theorem rangesDisjoint_step {s t : State} (h : RangesDisjoint s) (hs : step s = .next t) : RangesDisjoint t := by
  unfold step at hs
  split at hs
  · cases hs
    exact rangesDisjoint_of_keepsMappings h (keepsMappings_tick s)
  · rename_i c rest _
    exact rangesDisjoint_exec (s := { s with pending := rest }) h hs

/-- At most one grant's range contains a local address (R9, R15). -/
theorem inRange_unique {s : State} (hd : RangesDisjoint s) {a : LocalAddr} {i j : GrantIdx} {g h : Grant}
    (hg : s.grants[i].grant = some g) (hh : s.grants[j].grant = some h) (ha : inRange g a = true) (ha' : inRange h a = true) :
    i = j := by
  by_contra hij
  have hdisj := rangesOverlap_eq_false.mp (hd.2 i j hij g h hg hh)
  unfold inRange at ha ha'
  simp only [decide_eq_true_eq] at ha ha'
  omega

/-- Settles O52: OPEN and MODIFY place a legal mapping on a clear range, and nothing else places one. -/
theorem stepKeepsRangesDisjoint : Obligations.StepKeepsRangesDisjoint := by
  intro s h
  exact ⟨fun t hs => rangesDisjoint_step h hs, fun a i j g g' hg hg' ha ha' => inRange_unique h hg hg' ha ha'⟩

end Sys2Proof.Machine
end

section
/-! PROOF. OPEN and LOOKUP, case by case (R22 to R24, R27). -/

namespace Sys2Proof.Machine

open Sys2Proof.Safety

/-! ### OPEN -/

theorem cmdOpen_badarg {k : SlotNo} {s : State} (h : s.slots[k].openedGrant = none) : cmdOpen k s = s.endSlot k .badarg := by
  unfold cmdOpen
  rw [h]

theorem cmdOpen_overlap {k : SlotNo} {s : State} {g : Grant} (h : s.slots[k].openedGrant = some g)
    (hc : ¬ clearOf s none g.localBase.toNat g.cur.length) : cmdOpen k s = s.endSlot k .overlap := by
  rw [← State.overlaps_iff, Bool.not_eq_false] at hc
  unfold cmdOpen
  rw [h]
  dsimp only
  rw [if_pos hc]

/-- With good arguments and a clear range the search for a FREE index decides (R23, R24). -/
theorem cmdOpen_clear {k : SlotNo} {s : State} {g : Grant} (h : s.slots[k].openedGrant = some g)
    (hc : clearOf s none g.localBase.toNat g.cur.length) :
    cmdOpen k s = s.lowestFree.elim (s.endSlot k .full) fun i =>
      (s.setGrant i g).finish k (resultOpen { index := i, seq := s.grants[i].seq }) := by
  rw [← State.overlaps_iff] at hc
  unfold cmdOpen
  rw [h]
  dsimp only
  rw [if_neg (Bool.eq_false_iff.mp hc)]
  cases s.lowestFree <;> rfl

/-- The result area of an OPEN: the handle alone (R180). -/
theorem writeResult_open (i : GrantIdx) (q : Seq) (area : Vector Word 32) :
    writeResult (resultOpen { index := i, seq := q }) area = area.set 0 (handleWord i q) := by
  unfold resultOpen
  rw [writeResult_cons _ _ _ (by decide), writeResult_nil, Handle.word_eq]

/-- OPEN is executed at the front of the submission order (R141). -/
theorem exec_openGrant_atFront {s : State} {k : SlotNo} {rest : List SlotNo} (h : atFront s k rest 0x0001#16) :
    exec .openGrant s = .next (moderate s (cmdOpen k { s with order := rest })) := by
  have he : execOpenGrant s = answerNext s (cmdOpen k { s with order := rest }) := engine_eq h rfl
  exact he

/-- Settles O24: the checks of R22 and R23 pass, and the search gives the lowest FREE index. -/
theorem openCreatesGrant : Obligations.OpenCreatesGrant := by
  intro s k rest l i hf hr hl hc hi
  refine ⟨_, exec_openGrant_atFront hf, ?_⟩
  rw [cmdOpen_clear (s := { s with order := rest }) (Slot.openedGrant_some hr hl) hc,
    State.lowestFree_eq (s := { s with order := rest }) hi, Option.elim_some]
  apply moderate_settles
  rw [State.finish_eq, writeResult_open]
  rfl

/-- Settles O25: the first of the three checks that fails gives the status. -/
theorem openRefusals : Obligations.OpenRefusals := by
  intro s k rest hf
  refine ⟨fun hbad => ?_, fun hr ⟨l, hl⟩ => ⟨fun hover => ?_, fun hc hfull => ?_⟩⟩ <;>
    refine ⟨_, exec_openGrant_atFront hf, ?_⟩
  · rw [cmdOpen_badarg (s := { s with order := rest }) (Slot.openedGrant_none hbad)]
    exact endSlot_endsWith
  · rw [cmdOpen_overlap (s := { s with order := rest }) (Slot.openedGrant_some hr hl) hover]
    exact endSlot_endsWith
  · rw [cmdOpen_clear (s := { s with order := rest }) (Slot.openedGrant_some hr hl) hc,
      State.lowestFree_none (s := { s with order := rest }) hfull, Option.elim_none]
    exact endSlot_endsWith

/-! ### LOOKUP -/

/-- The access kind that a field of 8 bits holds, read from +0x3C (R27, R179). -/
theorem Slot.accessKind_eq (sl : Slot) : sl.accessKind =
    if sl.args[11].extractLsb' 0 8 = 0#8 then some .read
    else if sl.args[11].extractLsb' 0 8 = 1#8 then some .write else none := rfl

theorem Slot.accessKind_none {sl : Slot} (h : 2#8 ≤ sl.args[11].extractLsb' 0 8) : sl.accessKind = none := by
  rw [Slot.accessKind_eq, if_neg (by bv_omega), if_neg (by bv_omega)]

theorem Slot.accessKind_some {sl : Slot} {kind : AccessKind} (h : (sl.args[11].extractLsb' 0 8).toNat = kindBit kind) :
    sl.accessKind = some kind := by
  have hf : sl.args[11].extractLsb' 0 8 = BitVec.ofNat 8 (kindBit kind) := by
    rw [← h, BitVec.ofNat_toNat, BitVec.setWidth_eq]
  rw [Slot.accessKind_eq, hf]
  cases kind <;> rfl

/-- LOOKUP's question of a HALTED requester (R27). -/
theorem State.lookupQuestion_halted {s : State} {p : PortNo} (h : s.ports[p].run = .halted) (k : AccessKind) (a : LocalAddr) :
    s.lookupQuestion p k a = .refuse .halted none :=
  if_pos h

/-- LOOKUP's question of a requester in RUN: checks 3 to 5 (R27). -/
theorem State.lookupQuestion_run {s : State} {p : PortNo} (h : s.ports[p].run = .run) (k : AccessKind) (a : LocalAddr) :
    s.lookupQuestion p k a = s.lookupGrant p k a :=
  if_neg (by rw [h]; decide)

theorem cmdLookup_badarg {k : SlotNo} {s : State} (h : s.slots[k].accessKind = none) :
    cmdLookup k s = s.endSlot k .badarg := by
  unfold cmdLookup
  dsimp only
  rw [h]

/-- A LOOKUP ends OK with what its question gives, refused or passed (R27). -/
theorem cmdLookup_refused {k : SlotNo} {s : State} {kind : AccessKind} {r : Result} {h : Option Handle}
    (hk : s.slots[k].accessKind = some kind)
    (hq : s.lookupQuestion s.slots[k].requester kind s.slots[k].localAddr = .refuse r h) :
    cmdLookup k s = s.finish k (resultLookupRefused r h) := by
  unfold cmdLookup
  dsimp only
  rw [hk]
  dsimp only
  rw [hq]

theorem cmdLookup_passed {k : SlotNo} {s : State} {kind : AccessKind} {i : GrantIdx} {n : GenNo} {host : HostAddr}
    (hk : s.slots[k].accessKind = some kind)
    (hq : s.lookupQuestion s.slots[k].requester kind s.slots[k].localAddr = .pass i n host) :
    cmdLookup k s = s.finish k (resultLookupOk { index := i, seq := s.grants[i].seq } n host) := by
  unfold cmdLookup
  dsimp only
  rw [hk]
  dsimp only
  rw [hq]

/-- The word at +0x84 of a LOOKUP: the result in bits 3:0, whether a handle is given in bit 8 (R180). -/
theorem resultWord_eq (r : Result) (b : Bool) :
    put 0 4 r.code ||| flag 8 b = BitVec.ofNat 32 (resultValue r + bit b * 2 ^ 8) := by
  cases r <;> cases b <;> rfl

theorem writeResult_lookupRefused (r : Result) (h : Option Handle) (area : Vector Word 32) :
    writeResult (resultLookupRefused r h) area
      = (area.set 0 (handleWordOf h)).set 1 (BitVec.ofNat 32 (resultValue r + bit h.isSome * 2 ^ 8)) := by
  unfold resultLookupRefused
  rw [writeResult_cons _ _ _ (by decide), writeResult_cons _ _ _ (by decide), writeResult_nil, resultWord_eq]
  cases h with
  | none => rfl
  | some h =>
    dsimp only
    rw [Handle.word_eq]
    rfl

theorem writeResult_lookupOk (i : GrantIdx) (q : Seq) (n : GenNo) (host : HostAddr) (area : Vector Word 32) :
    writeResult (resultLookupOk { index := i, seq := q } n host) area
      = ((((area.set 0 (handleWord i q)).set 1 0x100#32).set 2 (n.setWidth 32)).set 3 (host.extractLsb' 0 32)).set 4
          (host.extractLsb' 32 32) := by
  unfold resultLookupOk
  iterate 5 rw [writeResult_cons _ _ _ (by decide)]
  rw [writeResult_nil, resultWord_eq, Handle.word_eq, put_gen]
  rfl

/-- LOOKUP is executed at the front of the submission order (R141). -/
theorem exec_lookup_atFront {s : State} {k : SlotNo} {rest : List SlotNo} (h : atFront s k rest 0x0006#16) :
    exec .lookup s = .next (moderate s (cmdLookup k { s with order := rest })) := by
  have he : execLookup s = answerNext s (cmdLookup k { s with order := rest }) := engine_eq h rfl
  exact he

/-- Settles O34: LOOKUP only writes the answer to its question into its slot. -/
theorem lookupAnswersWithoutEffect : Obligations.LookupAnswersWithoutEffect := by
  intro s k rest hf
  refine ⟨fun hbad => ⟨_, exec_lookup_atFront hf, ?_⟩, ?_⟩
  · rw [cmdLookup_badarg (s := { s with order := rest }) (Slot.accessKind_none hbad)]
    exact endSlot_endsWith
  · rintro p kind a rfl hkind rfl
    have hk := Slot.accessKind_some hkind
    refine ⟨fun r h hr => ⟨_, exec_lookup_atFront hf, ?_⟩,
      fun i g hrun hfound hopen hallow => ⟨_, exec_lookup_atFront hf, ?_⟩⟩
    · have hq : s.lookupQuestion (requesterOf s.slots[k]) kind (s.slots[k].args[2].extractLsb' 0 30) = .refuse r h := by
        obtain ⟨hhalt, rfl, rfl⟩ | ⟨hrun, hrefuses⟩ := hr
        · exact State.lookupQuestion_halted hhalt _ _
        · rw [State.lookupQuestion_run hrun]
          exact State.lookupGrant_refuses hrefuses
      rw [cmdLookup_refused (s := { s with order := rest }) hk hq, ← writeResult_lookupRefused]
      exact finish_settles
    · have hq : s.lookupQuestion (requesterOf s.slots[k]) kind (s.slots[k].args[2].extractLsb' 0 30)
          = .pass i g.cur.number (hostOf g (s.slots[k].args[2].extractLsb' 0 30)) := by
        rw [State.lookupQuestion_run hrun]
        exact State.lookupGrant_passes hfound hopen hallow
      rw [cmdLookup_passed (s := { s with order := rest }) hk hq, ← writeResult_lookupOk]
      exact finish_settles

end Sys2Proof.Machine
end

section
/-! PROOF. The account of one record (R28): which changes keep it, what a fall of a count makes of it, and that an access which
joins the traffic or leaves it moves one count with it. -/

namespace Sys2Proof.Machine

open Sys2Proof.Safety

/-! ### The account of one record -/

/-- The in-flight count of a grant for a generation number: 0 for one that is not live. -/
def Grant.heldFor (g : Grant) (n : GenNo) : Nat :=
  if g.cur.number = n then g.cur.count
  else g.phase.prev.elim 0 fun p => if p.number = n then p.count else 0

theorem countHeld_free {r : Record} (h : r.grant = none) (n : GenNo) : countHeld r n = 0 := by
  unfold countHeld
  rw [h]

theorem countHeld_some {r : Record} {g : Grant} (h : r.grant = some g) (n : GenNo) : countHeld r n = g.heldFor n := by
  unfold countHeld Grant.heldFor
  rw [h]
  dsimp only
  cases g.phase.prev <;> rfl

theorem Grant.idleTraffic_iff (g : Grant) :
    g.idleTraffic = true ↔ g.cur.count = 0 ∧ ∀ p, g.phase.prev = some p → p.count = 0 := by
  unfold Grant.idleTraffic
  cases g.phase.prev <;> simp

/-- A record agrees with the traffic `c` in flight under each generation number, and its generations are sound: the share of
one index in `TrafficAccounted`. -/
def accounts (r : Record) (c : GenNo → Nat) : Prop :=
  (∀ n, c n = countHeld r n) ∧ ∀ g, r.grant = some g → generationsSound g

theorem accounts_free {r : Record} {c : GenNo → Nat} (h : r.grant = none) : accounts r c ↔ ∀ n, c n = 0 := by
  simp [accounts, countHeld_free h, h]

theorem accounts_some {r : Record} {c : GenNo → Nat} {g : Grant} (h : r.grant = some g) :
    accounts r c ↔ (∀ n, c n = g.heldFor n) ∧ generationsSound g := by
  simp [accounts, countHeld_some h, h]

theorem generation_ne_next (n : GenNo) : n ≠ n + 1#4 := by
  revert n
  decide

/-! ### Changes of a record that keep its account -/

/-- A change of a record under which it accounts for the traffic that it accounted for before. -/
def keepsAccount (r r' : Record) : Prop :=
  ∀ c, accounts r c → accounts r' c

theorem keepsAccount_refl (r : Record) : keepsAccount r r :=
  fun _ h => h

/-- A change that keeps both generations, and closes the grant only with traffic in flight. -/
theorem keepsAccount_of_generations {r r' : Record} {g g' : Grant} (hg : r.grant = some g) (hg' : r'.grant = some g')
    (hcur : g'.cur = g.cur) (hprev : g'.phase.prev = g.phase.prev)
    (hclose : g'.phase.isClosing = true → g.phase.isClosing = true ∨ g'.idleTraffic = false) : keepsAccount r r' := by
  intro c h
  rw [accounts_some hg] at h
  rw [accounts_some hg']
  obtain ⟨hc, hsound, hbusy⟩ := h
  have hidle : g'.idleTraffic = g.idleTraffic := by unfold Grant.idleTraffic; rw [hcur, hprev]
  refine ⟨fun n => ?_, ?_, fun hcl => ?_⟩
  · rw [hc n]
    unfold Grant.heldFor
    rw [hcur, hprev]
  · rw [hcur, hprev]
    exact hsound
  · obtain ho | hb := hclose hcl
    · exact hidle.trans (hbusy ho)
    · exact hb

/-- A grant that carries nothing is freed (R5). -/
theorem keepsAccount_freed {r r' : Record} {g : Grant} (hg : r.grant = some g) (hidle : g.idleTraffic = true)
    (hr : r'.grant = none) : keepsAccount r r' := by
  intro c h
  rw [accounts_some hg] at h
  rw [accounts_free hr]
  intro n
  obtain ⟨hcur, hprev⟩ := g.idleTraffic_iff.mp hidle
  rw [h.1 n]
  unfold Grant.heldFor
  cases hp : g.phase.prev with
  | none => simp [hcur]
  | some p => simp [hcur, hprev p hp]

/-- A FREE record takes a grant that carries nothing (R24). -/
theorem keepsAccount_opened {r r' : Record} {g : Grant} (hr : r.grant = none) (hg : r'.grant = some g)
    (hph : g.phase = .opened) (hcount : g.cur.count = 0) : keepsAccount r r' := by
  intro c h
  rw [accounts_free hr] at h
  rw [accounts_some hg]
  refine ⟨fun n => ?_, ?_, ?_⟩
  · simp [h n, Grant.heldFor, hph, Phase.prev, hcount]
  · simp [hph, Phase.prev]
  · simp [hph, Phase.isClosing]

/-- A new generation in place of one that carries nothing (R40). -/
theorem keepsAccount_replaced {r r' : Record} {g g' : Grant} (hg : r.grant = some g) (hg' : r'.grant = some g')
    (hph : g.phase = .opened) (hph' : g'.phase = .opened) (hidle : g.cur.count = 0) (hcount : g'.cur.count = 0) :
    keepsAccount r r' := by
  intro c h
  rw [accounts_some hg] at h
  rw [accounts_some hg']
  refine ⟨fun n => ?_, ?_, ?_⟩
  · rw [h.1 n]
    simp [Grant.heldFor, hph, hph', Phase.prev, hidle, hcount]
  · simp [hph', Phase.prev]
  · simp [hph', Phase.isClosing]

/-- A new generation with the next number, where the old one carries traffic and becomes the previous one (R33, R34, R41). -/
theorem keepsAccount_drained {r r' : Record} {g g' : Grant} {p : PrevGeneration} (hg : r.grant = some g)
    (hg' : r'.grant = some g') (hph : g.phase = .opened) (hph' : g'.phase = .draining p) (hold : p.number = g.cur.number)
    (holdCount : p.count = g.cur.count) (hbusy : g.cur.count ≠ 0) (hnew : g'.cur.number = g.cur.number + 1#4)
    (hcount : g'.cur.count = 0) : keepsAccount r r' := by
  intro c h
  rw [accounts_some hg] at h
  rw [accounts_some hg']
  have hne := generation_ne_next g.cur.number
  refine ⟨fun n => ?_, ?_, ?_⟩
  · rw [h.1 n]
    simp only [Grant.heldFor, hph, hph', Phase.prev, hnew, hcount, hold, holdCount, Option.elim_some, Option.elim_none]
    by_cases hn : g.cur.number + 1#4 = n
    · rw [if_pos hn, if_neg fun e => hne (e.trans hn.symm)]
    · rw [if_neg hn]
  · rintro q hq
    rw [hph', Phase.prev, Option.some.injEq] at hq
    subst hq
    exact ⟨by rw [hold, hnew], by omega⟩
  · simp [hph', Phase.isClosing]

/-! ### The fall of a count (R31) -/


/-- What a fall of the count of generation `n` can make of a grant (R31): the cases of `fallOutcome`, told apart by the
generations alone. -/
inductive Falls (g : Grant) (n : GenNo) : Option Grant → Prop
  /-- The current count falls. -/
  | current (hn : g.cur.number = n)
      (hbusy : g.phase.isClosing = true → g.phase.prev = none → g.cur.count - 1 ≠ 0) :
      Falls g n (some { g with cur := { g.cur with count := g.cur.count - 1 } })
  /-- The current count reaches 0 in a CLOSING grant without a previous generation. -/
  | currentLast (hn : g.cur.number = n) (hp : g.phase.prev = none) (h0 : g.cur.count - 1 = 0) : Falls g n none
  /-- The previous count falls, and its generation goes at 0. -/
  | previous {p : PrevGeneration} {ph : Phase} {w : Option SlotNo} (hn : g.cur.number ≠ n) (hp : g.phase.prev = some p)
      (hpn : p.number = n) (hph : ph.prev = if p.count - 1 = 0 then none else some { p with count := p.count - 1 })
      (hbusy : ph.isClosing = true → p.count - 1 = 0 → g.cur.count ≠ 0) :
      Falls g n (some { g with phase := ph, waiting := w })
  /-- The previous count reaches 0 in a CLOSING grant whose current count is 0. -/
  | previousLast {p : PrevGeneration} (hn : g.cur.number ≠ n) (hp : g.phase.prev = some p) (hpn : p.number = n)
      (h0 : p.count - 1 = 0) (hc : g.cur.count = 0) : Falls g n none
  /-- The generation is not live. -/
  | absent (hn : g.cur.number ≠ n) (hp : ∀ p, g.phase.prev = some p → p.number ≠ n) : Falls g n (some g)

theorem fallOutcome_falls {r : Record} {g : Grant} (hg : r.grant = some g) (n : GenNo) :
    Falls g n (fallOutcome r n).1.grant := by
  unfold fallOutcome
  rw [hg]
  dsimp only
  by_cases hn : g.cur.number = n
  · rw [if_pos hn]
    split
    · rename_i hph
      split
      · rename_i h0
        exact .currentLast hn (by rw [hph]; rfl) h0
      · rename_i h0
        exact .current hn fun _ _ => h0
    · rename_i hph
      refine .current hn fun hcl hp => ?_
      cases h : g.phase with
      | closing c q =>
        obtain rfl : q = none := by rw [h] at hp; exact hp
        exact absurd h (hph c)
      | _ => rw [h] at hcl; cases hcl
  · rw [if_neg hn]
    have absent : (∀ p, g.phase.prev = some p → p.number ≠ n) → Falls g n r.grant := fun h => hg ▸ .absent hn h
    split
    · rename_i p hph
      have hp : g.phase.prev = some p := by rw [hph]; rfl
      split
      · rename_i hpn
        exact absent fun q hq => by rw [hp] at hq; cases hq; exact hpn
      · rename_i hpn
        split
        · rename_i h0
          exact .previous hn hp (not_not.mp hpn) (if_pos h0).symm (fun h => by cases h)
        · rename_i h0
          exact .previous hn hp (not_not.mp hpn) (if_neg h0).symm (fun h => by cases h)
    · rename_i c p hph
      have hp : g.phase.prev = some p := by rw [hph]; rfl
      split
      · rename_i hpn
        exact absent fun q hq => by rw [hp] at hq; cases hq; exact hpn
      · rename_i hpn
        split
        · rename_i h0
          split
          · rename_i hc
            exact .previousLast hn hp (not_not.mp hpn) h0 hc
          · rename_i hc
            exact .previous hn hp (not_not.mp hpn) (if_pos h0).symm (fun _ _ => hc)
        · rename_i h0
          exact .previous hn hp (not_not.mp hpn) (if_neg h0).symm (fun _ h => absurd h h0)
    · rename_i hd hc
      refine absent fun p hp => ?_
      cases h : g.phase with
      | opened => rw [h] at hp; cases hp
      | draining q => exact absurd h (hd q)
      | closing c q =>
        obtain rfl : q = some p := by rw [h] at hp; exact hp
        exact absurd h (hc c p)

/-- A fall takes one from the count of the generation that it names, and from no other. -/
theorem countHeld_fallOutcome (r : Record) (n m : GenNo) :
    countHeld (fallOutcome r n).1 m = countHeld r m - if n = m then 1 else 0 := by
  cases hg : r.grant with
  | none =>
    unfold fallOutcome
    rw [hg]
    simp [countHeld_free hg]
  | some g =>
    rw [countHeld_some hg]
    have hf := fallOutcome_falls hg n
    cases hr : (fallOutcome r n).1.grant with
    | none =>
      rw [countHeld_free hr]
      rw [hr] at hf
      cases hf with
      | currentLast hn hp h0 => by_cases hm : n = m <;> simp [Grant.heldFor, hn, hm, hp, h0]
      | previousLast hn hp hpn h0 hc =>
        by_cases hm : n = m
        · subst hm
          simp [Grant.heldFor, hn, hp, hpn, h0]
        · simp [Grant.heldFor, hp, hpn, hm, hc]
    | some g' =>
      rw [countHeld_some hr]
      rw [hr] at hf
      cases hf with
      | current hn => by_cases hm : n = m <;> simp [Grant.heldFor, hn, hm]
      | @previous p _ _ hn hp hpn hph =>
        by_cases hm : n = m
        · subst hm
          by_cases h0 : p.count - 1 = 0 <;> simp [Grant.heldFor, hn, hp, hpn, hph, h0]
        · by_cases h0 : p.count - 1 = 0 <;> simp [Grant.heldFor, hp, hpn, hph, h0, hm]
      | absent hn hp =>
        by_cases hm : n = m
        · subst hm
          cases h : g.phase.prev with
          | none => simp [Grant.heldFor, hn, h]
          | some p => simp [Grant.heldFor, hn, h, hp p h]
        · simp [hm]

/-- A fall keeps the generations of a grant sound: a closing grant whose last traffic departs is freed (R31, R47). -/
theorem generationsSound_fallOutcome {r : Record} {g g' : Grant} (n : GenNo) (hg : r.grant = some g)
    (hg' : (fallOutcome r n).1.grant = some g') (h : generationsSound g) : generationsSound g' := by
  obtain ⟨hsound, hbusy⟩ := h
  have hf := fallOutcome_falls hg n
  rw [hg'] at hf
  cases hf with
  | current hn hlast =>
    refine ⟨hsound, fun hcl => ?_⟩
    rw [Bool.eq_false_iff, Ne, Grant.idleTraffic_iff]
    rintro ⟨h0, hprev⟩
    cases hp : g.phase.prev with
    | none => exact hlast hcl hp h0
    | some p =>
      have := (hsound p hp).2
      have := hprev p hp
      omega
  | @previous p ph w hn hp hpn hph hlast =>
    refine ⟨fun q hq => ?_, fun hcl => ?_⟩
    · simp only [hph] at hq
      split at hq
      · cases hq
      · rename_i h0
        cases hq
        exact ⟨(hsound p hp).1, Nat.pos_of_ne_zero h0⟩
    · rw [Bool.eq_false_iff, Ne, Grant.idleTraffic_iff]
      rintro ⟨h0, hprev⟩
      by_cases hz : p.count - 1 = 0
      · exact hlast hcl hz h0
      · exact hz (hprev _ (hph.trans (if_neg hz)))
  | absent => exact ⟨hsound, hbusy⟩

/-! ### Traffic that rises and falls by one -/

/-- The traffic `c'` is `c` and one more under generation `n`. -/
def oneMore (n : GenNo) (c c' : GenNo → Nat) : Prop :=
  ∀ m, c' m = c m + if n = m then 1 else 0

/-- A successful lookup counts the access under the current generation (R19). -/
theorem accounts_counted {r : Record} {g : Grant} {c c' : GenNo → Nat} (hg : r.grant = some g) (k : AccessKind)
    (h : accounts r c) (hc : oneMore g.cur.number c c') : accounts { r with grant := some (g.counted k) } c' := by
  rw [accounts_some hg] at h
  rw [accounts_some rfl]
  obtain ⟨hheld, hsound, -⟩ := h
  refine ⟨fun n => ?_, hsound, fun _ => by simp [Grant.idleTraffic, Grant.counted]⟩
  rw [hc n, hheld n]
  by_cases hn : g.cur.number = n <;> simp [Grant.heldFor, Grant.counted, hn]

/-- A departure leaves an account of the traffic that stays (R30, R31). -/
theorem accounts_fallOutcome {r : Record} {n : GenNo} {c c' : GenNo → Nat} (h : accounts r c) (hc : oneMore n c' c) :
    accounts (fallOutcome r n).1 c' := by
  refine ⟨fun m => ?_, fun g' hg' => ?_⟩
  · rw [countHeld_fallOutcome, ← h.1 m, hc m]
    omega
  · cases hg : r.grant with
    | none =>
      unfold fallOutcome at hg'
      rw [hg] at hg'
      cases hg.symm.trans hg'
    | some g => exact generationsSound_fallOutcome n hg hg' (h.2 g hg)

end Sys2Proof.Machine
end

section
/-! PROOF. The traffic of a state (R28): what tags and queue entries carry, and which changes of a state keep its accounts. -/

namespace Sys2Proof.Machine

open Sys2Proof.Safety

/-! ### The traffic of a state -/

/-- A WAITING tag carries a generation of a grant (R28). -/
def TagEntry.carries (i : GrantIdx) (n : GenNo) : TagEntry → Bool
  | .waiting r _ _ => r.index == i && r.gen == n
  | _ => false

theorem tagsCarrying_eq (s : State) (i : GrantIdx) (n : GenNo) :
    tagsCarrying s i n = s.tags.toList.countP (TagEntry.carries i n) :=
  rfl

/-- How many tags and queue entries carry a generation of a grant (R28). -/
def carried (s : State) (i : GrantIdx) (n : GenNo) : Nat :=
  tagsCarrying s i n + entriesCarrying s i n

theorem trafficAccounted_iff (s : State) :
    TrafficAccounted s ↔ (∀ i : GrantIdx, accounts s.grants[i] (carried s i)) ∧ s.queue.length ≤ 16 := by
  unfold TrafficAccounted accounts carried
  rw [forall_and, and_assoc]

theorem trafficAccounted_queue_le {s : State} (h : TrafficAccounted s) : s.queue.length ≤ 16 := by
  obtain ⟨-, -, hq⟩ := h
  exact hq

theorem carried_of_eq {s t : State} (ht : t.tags = s.tags) (hq : t.queue = s.queue) : carried t = carried s := by
  unfold carried tagsCarrying entriesCarrying
  rw [ht, hq]

/-- The traffic of `t` is that of `s` and one more tag or entry that carries generation `n` of index `i`. -/
def carriesOneMore (i : GrantIdx) (n : GenNo) (s t : State) : Prop :=
  ∀ j m, carried t j m = carried s j m + if i = j ∧ n = m then 1 else 0

theorem TagEntry.carries_waiting (r : ReadInfo) (u v : Nat) (i : GrantIdx) (n : GenNo) :
    ((TagEntry.waiting r u v).carries i n).toNat = if r.index = i ∧ r.gen = n then 1 else 0 := by
  simp [TagEntry.carries, Bool.toNat, cond_eq_ite]

/-- A tag that is set carries what the new entry carries, and no longer what the old one carried. -/
theorem tagsCarrying_set {s t : State} {x : TagNo} {e : TagEntry} (h : t.tags = s.tags.set x e) (i : GrantIdx) (n : GenNo) :
    tagsCarrying t i n + (s.tags[x].carries i n).toNat = tagsCarrying s i n + (e.carries i n).toNat := by
  have hx : x.val < s.tags.toList.length := by simp
  have hle := List.boole_getElem_le_countP (p := TagEntry.carries i n) hx
  have hget : s.tags.toList[x.val] = s.tags[x] := by simp
  rw [tagsCarrying_eq, tagsCarrying_eq, h, Vector.toList_set, List.countP_set hx]
  rw [hget] at hle ⊢
  generalize s.tags[x].carries i n = b at hle ⊢
  cases b <;> cases e.carries i n <;> simp only [Bool.toNat, cond, if_true, Bool.false_eq_true, if_false] at hle ⊢ <;> omega

/-- A tag whose new entry carries what the old one carried: the traffic stays. -/
theorem carried_setTag_same {s t : State} {x : TagNo} {e : TagEntry} (ht : t.tags = s.tags.set x e) (hq : t.queue = s.queue)
    (he : ∀ i n, e.carries i n = s.tags[x].carries i n) : carried t = carried s := by
  funext i n
  have := tagsCarrying_set ht i n
  rw [he i n] at this
  unfold carried entriesCarrying
  rw [hq]
  omega

/-- A FREE tag becomes WAITING (R98). -/
theorem carriesOneMore_issued {s t : State} {x : TagNo} {r : ReadInfo} {u v : Nat} (hx : s.tags[x] = .free)
    (ht : t.tags = s.tags.set x (.waiting r u v)) (hq : t.queue = s.queue) : carriesOneMore r.index r.gen s t := by
  intro i n
  have := tagsCarrying_set ht i n
  rw [TagEntry.carries_waiting, hx] at this
  unfold carried entriesCarrying
  rw [hq]
  simp only [TagEntry.carries, Bool.toNat_false] at this
  omega

/-- A WAITING tag becomes FREE or PARKED (R103). -/
theorem carriesOneMore_retired {s t : State} {x : TagNo} {r : ReadInfo} {u v : Nat} {e : TagEntry}
    (hx : s.tags[x] = .waiting r u v) (he : ∀ i n, e.carries i n = false) (ht : t.tags = s.tags.set x e)
    (hq : t.queue = s.queue) : carriesOneMore r.index r.gen t s := by
  intro i n
  have := tagsCarrying_set ht i n
  rw [hx, TagEntry.carries_waiting, he i n] at this
  unfold carried entriesCarrying
  rw [hq]
  simp only [Bool.toNat_false] at this
  omega

/-- An entry joins the tail of the write queue (R117). -/
theorem carriesOneMore_accepted {s t : State} {e : QueueEntry} (ht : t.tags = s.tags) (hq : t.queue = s.queue ++ [e]) :
    carriesOneMore e.index e.gen s t := by
  intro i n
  unfold carried entriesCarrying tagsCarrying
  rw [hq, ht, List.countP_append, List.countP_singleton, Nat.add_assoc]
  simp

/-- The head entry leaves the write queue (R118). -/
theorem carriesOneMore_left {s t : State} {e : QueueEntry} (ht : t.tags = s.tags) (hq : s.queue = e :: t.queue) :
    carriesOneMore e.index e.gen t s := by
  intro i n
  unfold carried entriesCarrying tagsCarrying
  rw [hq, ht, List.countP_cons, Nat.add_assoc]
  simp

/-! ### Changes of a state -/

/-- A record after a change of the record at one index. -/
theorem grants_set_get {s t : State} {i j : GrantIdx} {r : Record} (hg : t.grants = s.grants.set i r) :
    t.grants[j] = if i = j then r else s.grants[j] := by
  rw [hg]
  exact State.setRecord_get i j r s

/-- A change of one record that keeps its account, with the traffic as it was. -/
theorem trafficAccounted_of_record {s t : State} {i : GrantIdx} {r : Record} (h : TrafficAccounted s)
    (ht : t.tags = s.tags) (hq : t.queue = s.queue) (hg : t.grants = s.grants.set i r) (hr : keepsAccount s.grants[i] r) :
    TrafficAccounted t := by
  rw [trafficAccounted_iff] at h ⊢
  refine ⟨fun j => ?_, hq ▸ h.2⟩
  rw [carried_of_eq ht hq, grants_set_get hg]
  split
  · rename_i e
    subst e
    exact hr _ (h.1 i)
  · exact h.1 j

/-- A change that keeps every record's account, with the traffic as it was. -/
theorem trafficAccounted_of_records {s t : State} (h : TrafficAccounted s) (hc : carried t = carried s)
    (hq : t.queue = s.queue) (hr : ∀ i : GrantIdx, keepsAccount s.grants[i] t.grants[i]) : TrafficAccounted t := by
  rw [trafficAccounted_iff] at h ⊢
  refine ⟨fun j => ?_, hq ▸ h.2⟩
  rw [hc]
  exact hr j _ (h.1 j)

/-- A change that leaves the grants, the tags and the write queue as they are. -/
theorem trafficAccounted_of_frame {s t : State} (h : TrafficAccounted s) (hg : t.grants = s.grants) (ht : t.tags = s.tags)
    (hq : t.queue = s.queue) : TrafficAccounted t :=
  trafficAccounted_of_records h (carried_of_eq ht hq) hq fun i => by rw [hg]; exact keepsAccount_refl _

/-- An access is counted and its tag or entry joins the traffic (R19, R28). -/
theorem trafficAccounted_rises {s t : State} {i : GrantIdx} {g : Grant} {k : AccessKind} (h : TrafficAccounted s)
    (hgr : s.grants[i].grant = some g) (hg : t.grants = s.grants.set i { s.grants[i] with grant := some (g.counted k) })
    (hc : carriesOneMore i g.cur.number s t) (hq : t.queue.length ≤ 16) : TrafficAccounted t := by
  rw [trafficAccounted_iff] at h ⊢
  refine ⟨fun j => ?_, hq⟩
  rw [grants_set_get hg]
  split
  · rename_i e
    subst e
    exact accounts_counted hgr k (h.1 i) fun m => by simpa using hc i m
  · rename_i e
    rw [show carried t j = carried s j from funext fun m => by simpa [e] using hc j m]
    exact h.1 j

/-- A tag or entry leaves the traffic and its count falls (R28, R30). -/
theorem trafficAccounted_falls {s t : State} {i : GrantIdx} {n : GenNo} (h : TrafficAccounted s)
    (hg : t.grants = s.grants.set i (fallOutcome s.grants[i] n).1) (hc : carriesOneMore i n t s)
    (hq : t.queue.length ≤ 16) : TrafficAccounted t := by
  rw [trafficAccounted_iff] at h ⊢
  refine ⟨fun j => ?_, hq⟩
  rw [grants_set_get hg]
  split
  · rename_i e
    subst e
    exact accounts_fallOutcome (h.1 i) fun m => by simpa using hc i m
  · rename_i e
    rw [← show carried s j = carried t j from funext fun m => by simpa [e] using hc j m]
    exact h.1 j

/-- With no grant, no tag in use and an empty write queue there is nothing to account for. -/
theorem trafficAccounted_of_empty {t : State} (hg : ∀ i : GrantIdx, t.grants[i].grant = none)
    (ht : t.tags = Vector.replicate 32 TagEntry.free) (hq : t.queue = []) : TrafficAccounted t := by
  rw [trafficAccounted_iff]
  refine ⟨fun i => (accounts_free (hg i)).mpr fun n => ?_, by simp [hq]⟩
  unfold carried entriesCarrying
  rw [tagsCarrying_eq, ht, hq]
  simp [TagEntry.carries]

theorem trafficAccounted_ite {c : Prop} [Decidable c] {x y : State} (hx : TrafficAccounted x) (hy : TrafficAccounted y) :
    TrafficAccounted (if c then x else y) := by
  split
  · exact hx
  · exact hy

theorem trafficAccounted_moderate (s : State) {x : State} (h : TrafficAccounted x) : TrafficAccounted (moderate s x) :=
  trafficAccounted_of_frame h (moderate_grants s x) (moderate_tags s x) (moderate_queue s x)

theorem trafficAccounted_next {x t : State} (h : (.next x : Host.Outcome State Fault Refusal) = .next t)
    (hx : TrafficAccounted x) : TrafficAccounted t := by
  cases h
  exact hx

theorem trafficAccounted_answerNext {s x t : State} (h : answerNext s x = .next t) (hx : TrafficAccounted x) :
    TrafficAccounted t := by
  rw [answerNext_next h]
  exact trafficAccounted_moderate s hx

end Sys2Proof.Machine
end

section
/-! PROOF. R28 along every step: the operations that issue, accept and retire, the commands that place and close a grant, and
the bound on what one grant has in flight. -/

namespace Sys2Proof.Machine

open Sys2Proof.Safety

/-! ### The shared operations -/

/-- The retirement of a WAITING tag, in terms of what `r` is retired for (R103). -/
theorem trafficAccounted_retire {s : State} {x : TagNo} {r r' : ReadInfo} {u v : Nat} {res : Result} {e : TagEntry}
    (h : TrafficAccounted s) (hx : s.tags[x] = .waiting r' u v) (hi : r'.index = r.index) (hn : r'.gen = r.gen)
    (he : ∀ i n, e.carries i n = false) : TrafficAccounted (s.retire x r res e) := by
  have hg : (s.retire x r res e).grants = s.grants.set r.index (fallOutcome s.grants[r.index] r.gen).1 := by
    unfold State.retire
    rw [State.withdraw_eq, State.fall_tagLeaves_eq]
    simp
  have ht : (s.retire x r res e).tags = s.tags.set x e := by
    unfold State.retire
    rw [State.withdraw_eq]
    simp [State.setTag]
  have hq := State.retire_queue x r res e s
  refine trafficAccounted_falls h hg ?_ (hq ▸ trafficAccounted_queue_le h)
  rw [← hi, ← hn]
  exact carriesOneMore_retired hx he ht hq

/-- A change of every tag that leaves what each carries. -/
theorem carried_mapTags {s t : State} {f : TagEntry → TagEntry} (ht : t.tags = Vector.ofFn fun x : TagNo => f s.tags[x])
    (hq : t.queue = s.queue) (hf : ∀ e i n, (f e).carries i n = e.carries i n) : carried t = carried s := by
  have hmap : t.tags = s.tags.map f := by
    rw [ht]
    ext x hx
    simp
  funext i n
  unfold carried entriesCarrying
  rw [tagsCarrying_eq, tagsCarrying_eq, hmap, hq, Vector.toList_map, List.countP_map]
  congr 2
  funext e
  exact hf e i n

/-- Detachment leaves what a tag carries (R86). -/
theorem trafficAccounted_cleanRequester {s : State} (h : TrafficAccounted s) (p : PortNo) :
    TrafficAccounted (s.cleanRequester p) := by
  have hf : ∀ e i n, (TagEntry.detachFor p e).carries i n = e.carries i n := by
    intro e i n
    cases e with
    | waiting r u v =>
      unfold TagEntry.detachFor
      by_cases hp : r.requester = p <;> simp [TagEntry.carries, hp]
    | free | parked => rfl
  exact trafficAccounted_of_records h (carried_mapTags rfl rfl hf) rfl fun _ => keepsAccount_refl _

theorem trafficAccounted_cleanEvery : ∀ (l : List PortNo) {s : State}, TrafficAccounted s →
    TrafficAccounted (l.foldl State.cleanRequester s)
  | [], _, h => h
  | p :: l, _, h => trafficAccounted_cleanEvery l (trafficAccounted_cleanRequester h p)

/-- A teardown frees every grant and every tag and empties the queue (R2, R93, R123). -/
theorem trafficAccounted_teardown (s : State) : TrafficAccounted s.teardown := by
  refine trafficAccounted_of_empty (fun i => ?_) rfl rfl
  have h : s.teardown.grants[i] = s.grants[i].tornDown := by simp [State.teardown]
  rw [h]
  unfold Record.tornDown
  split
  · rfl
  · rename_i hg
    simpa using hg

theorem trafficAccounted_leaveUp (s : State) : TrafficAccounted s.leaveUp :=
  trafficAccounted_of_frame (trafficAccounted_teardown s) rfl rfl rfl

theorem trafficAccounted_reset : TrafficAccounted State.reset :=
  trafficAccounted_of_empty (fun i => by simp [State.reset, Record.initial]) rfl rfl

/-! ### The card side -/

theorem State.grantAt_grant {s : State} {a : LocalAddr} {i : GrantIdx} {g : Grant} (h : s.grantAt a = some (i, g)) :
    s.grants[i].grant = some g := by
  unfold State.grantAt at h
  obtain ⟨j, -, hj⟩ := List.exists_of_findSome?_eq_some h
  split at hj
  · rename_i g' hg'
    split at hj
    · cases hj
      exact hg'
    · cases hj
  · cases hj

/-- A lookup that passes gives the current generation of the grant that it marks (R18). -/
theorem State.lookupAccess_pass {s : State} {p : PortNo} {a : Access} {i : GrantIdx} {n : GenNo} {host : HostAddr}
    (h : s.lookupAccess p a = .pass i n host) : ∃ g, s.grants[i].grant = some g ∧ n = g.cur.number := by
  unfold State.lookupAccess at h
  split at h
  · cases h
  split at h
  · cases h
  unfold State.lookupGrant at h
  split at h
  · cases h
  rename_i j g hg
  dsimp only at h
  split at h
  · cases h
  split at h
  · cases h
    exact ⟨g, State.grantAt_grant hg, rfl⟩
  · cases h

theorem State.lowestFreeTag_free {s : State} {x : TagNo} (h : s.lowestFreeTag = some x) : s.tags[x] = .free := by
  unfold State.lowestFreeTag at h
  simpa using List.find?_some h

theorem trafficAccounted_grantRead {s : State} (h : TrafficAccounted s) (p : PortNo) {x : TagNo} (hx : s.tags[x] = .free)
    (a : LocalAddr) (len : Nat) (l : Label) : TrafficAccounted (s.grantRead p x a len l) := by
  unfold State.grantRead
  split
  · exact trafficAccounted_of_frame h (by simp) (by simp) (by simp)
  · rename_i i n host hl
    obtain ⟨g, hg, rfl⟩ := State.lookupAccess_pass hl
    have hc : carriesOneMore i g.cur.number s (s.issueRead p x len l i g g.cur.number host) :=
      carriesOneMore_issued (r := ⟨p, l, false, i, g.cur.number, host, len, 0⟩) hx rfl rfl
    rw [hg]
    exact trafficAccounted_rises h hg rfl hc (trafficAccounted_queue_le (s := s) h)

theorem trafficAccounted_tagGrant {s : State} (h : TrafficAccounted s) : TrafficAccounted s.tagGrant := by
  unfold State.tagGrant
  split
  · exact h
  · rename_i p _
    split
    · rename_i hx
      exact trafficAccounted_moderate s
        (trafficAccounted_grantRead (s := { s with tagLast := p }) h p (State.lowestFreeTag_free hx) _ _ _)
    · exact h

theorem trafficAccounted_grantsBefore (k : SlotNo) : ∀ (n : Nat) {s : State}, TrafficAccounted s →
    TrafficAccounted (s.grantsBefore k n)
  | 0, _, h => h
  | n + 1, _, h => by
    unfold State.grantsBefore
    exact trafficAccounted_ite (trafficAccounted_grantsBefore k n (trafficAccounted_tagGrant h)) h

theorem trafficAccounted_grantWrite {s : State} (h : TrafficAccounted s) (p : PortNo) (hq : s.queue.length < 16)
    (a : LocalAddr) (len : Nat) (d : List Byte) : TrafficAccounted (s.grantWrite p a len d) := by
  unfold State.grantWrite
  split
  · exact trafficAccounted_of_frame h (by simp) (by simp) (by simp)
  · rename_i i n host hl
    obtain ⟨g, hg, rfl⟩ := State.lookupAccess_pass hl
    have hc : carriesOneMore i g.cur.number s (s.acceptWrite p len d i g g.cur.number host) :=
      carriesOneMore_accepted (e := ⟨p, i, g.cur.number, host, len, d⟩) rfl rfl
    rw [hg]
    refine trafficAccounted_rises h hg rfl hc ?_
    have hlen : (s.acceptWrite p len d i g g.cur.number host).queue.length = s.queue.length + 1 := by
      simp [State.acceptWrite]
    dsimp only
    omega

theorem trafficAccounted_writeGrant {s t : State} (h : TrafficAccounted s) (he : execWriteGrant s = .next t) :
    TrafficAccounted t := by
  unfold execWriteGrant at he
  split at he
  · exact trafficAccounted_next he h
  · rename_i p hp
    have hroom : s.queue.length < 16 := by
      have := List.find?_some hp
      rw [State.writeEligible_eq, mayWrite, Bool.and_eq_true, decide_eq_true_eq] at this
      exact this.2
    split at he
    · exact trafficAccounted_answerNext he (trafficAccounted_grantWrite (s := { s with writeLast := p }) h p hroom _ _ _)
    · exact trafficAccounted_next he h

theorem trafficAccounted_writeLeaving {s t : State} (h : TrafficAccounted s) (he : execWriteLeaving s = .next t) :
    TrafficAccounted t := by
  unfold execWriteLeaving at he
  split at he
  · exact trafficAccounted_next he h
  · rename_i e rest hq
    split at he
    · refine trafficAccounted_answerNext he ?_
      have hlen := trafficAccounted_queue_le h
      rw [hq, List.length_cons] at hlen
      rw [State.fall_entryLeaves_eq]
      refine trafficAccounted_falls (s := s) (i := e.index) (n := e.gen) h rfl (carriesOneMore_left rfl hq) ?_
      dsimp only
      omega
    · exact trafficAccounted_next he h

/-! ### The read unit -/

theorem State.takeBytes_tags (x : TagNo) (r : ReadInfo) (u v : Nat) (d : List Byte) (s : State) :
    (s.takeBytes x r u v d).tags = s.tags.set x (.waiting { r with received := r.received + d.length } u v) := by
  unfold State.takeBytes
  dsimp only
  split <;> rfl

theorem trafficAccounted_takeBytes {s : State} (h : TrafficAccounted s) {x : TagNo} {r : ReadInfo} {u v : Nat}
    (hx : s.tags[x] = .waiting r u v) (d : List Byte) : TrafficAccounted (s.takeBytes x r u v d) := by
  have ht := State.takeBytes_tags x r u v d s
  refine trafficAccounted_of_records h (carried_setTag_same ht (by simp) fun i n => ?_) (by simp) fun i => ?_
  · rw [hx]
    rfl
  · rw [State.takeBytes_grants]
    exact keepsAccount_refl _

theorem trafficAccounted_takePart {s : State} (h : TrafficAccounted s) (x : TagNo) (part : Part) :
    TrafficAccounted (s.takePart x part) := by
  unfold State.takePart
  split
  · rename_i r u v hx
    have failed : TrafficAccounted (s.retire x r .hosterr .free) := trafficAccounted_retire h hx rfl rfl fun _ _ => rfl
    unfold State.partOnWaiting
    split
    · exact failed
    · rename_i d
      dsimp only
      have hb := trafficAccounted_takeBytes h hx d
      refine trafficAccounted_ite failed (trafficAccounted_ite ?_ hb)
      have hx' : (s.takeBytes x r u v d).tags[x] = .waiting { r with received := r.received + d.length } u v := by
        simp [State.takeBytes_tags]
      exact trafficAccounted_retire hb hx' rfl rfl fun _ _ => rfl
  · rename_i hx
    refine trafficAccounted_of_records h (carried_setTag_same (x := x) rfl rfl fun i n => ?_) rfl fun _ => keepsAccount_refl _
    rw [hx]
    rfl
  · exact h

theorem trafficAccounted_completionPart {n : Nat} {c : Completion} {s t : State} (h : TrafficAccounted s)
    (he : execCompletionPart n c s = .next t) : TrafficAccounted t := by
  unfold execCompletionPart at he
  split at he
  · refine trafficAccounted_answerNext he ?_
    split
    · exact trafficAccounted_takePart h _ _
    · exact h
  · exact trafficAccounted_next he h

theorem trafficAccounted_deadlineExpiry {x : TagNo} {s t : State} (h : TrafficAccounted s)
    (he : execDeadlineExpiry x s = .next t) : TrafficAccounted t := by
  unfold execDeadlineExpiry at he
  split at he
  · rename_i hx
    exact trafficAccounted_answerNext he (trafficAccounted_retire h hx rfl rfl fun _ _ => rfl)
  · exact trafficAccounted_next he h

theorem trafficAccounted_parkPeriodEnd {x : TagNo} {s t : State} (h : TrafficAccounted s)
    (he : execParkPeriodEnd x s = .next t) : TrafficAccounted t := by
  unfold execParkPeriodEnd at he
  split at he
  · rename_i hx
    refine trafficAccounted_next he
      (trafficAccounted_of_records h (carried_setTag_same (x := x) rfl rfl fun i n => ?_) rfl fun _ => keepsAccount_refl _)
    rw [hx]
    rfl
  · exact trafficAccounted_next he h

/-! ### The engine's commands and the timers -/

theorem State.freeGrant_grants {s : State} {i : GrantIdx} {g : Grant} (hg : s.grants[i].grant = some g) :
    (s.freeGrant i).grants = s.grants.set i (freedRecord s.grants[i]) := by
  rw [State.freeGrant_eq hg]

theorem State.lowestFree_free {s : State} {i : GrantIdx} (h : s.lowestFree = some i) : s.grants[i].grant = none := by
  unfold State.lowestFree at h
  simpa using List.find?_some h

theorem trafficAccounted_cmdOpen (k : SlotNo) {s : State} (h : TrafficAccounted s) : TrafficAccounted (cmdOpen k s) := by
  unfold cmdOpen
  split
  · exact h
  · rename_i g hg
    have hnew : g.phase = .opened ∧ g.cur.count = 0 := by
      unfold Slot.openedGrant at hg
      split at hg
      · split at hg
        · cases hg
          exact ⟨rfl, rfl⟩
        · cases hg
      · cases hg
    obtain ⟨hph, hcount⟩ := hnew
    refine trafficAccounted_ite h ?_
    split
    · exact h
    · rename_i i hi
      exact trafficAccounted_of_record h rfl rfl rfl (keepsAccount_opened (State.lowestFree_free hi) rfl hph hcount)

/-- A mapping MODIFY keeps the account: the new generation carries nothing, and the old one stays while it carries traffic
(R34, R40, R41). -/
theorem trafficAccounted_remap {s : State} {k : SlotNo} {hd : Handle} {g : Grant} (h : TrafficAccounted s)
    (hg : s.grants[hd.index].grant = some g) (hph : g.phase = .opened) : TrafficAccounted (s.remap k hd g) := by
  unfold State.remap
  split
  · rename_i n l hn _
    obtain ⟨hnum, hcount, -⟩ := Slot.nextGeneration_iff.mp hn
    dsimp only
    split
    · rename_i hidle
      exact trafficAccounted_of_record h rfl rfl rfl (keepsAccount_replaced hg rfl hph hph hidle hcount)
    · rename_i hbusy
      exact trafficAccounted_of_record h rfl rfl rfl (keepsAccount_drained hg rfl hph rfl rfl rfl hbusy hnum hcount)
  · exact h

theorem trafficAccounted_relabel {s : State} {k : SlotNo} {hd : Handle} {g : Grant} (h : TrafficAccounted s)
    (hg : s.grants[hd.index].grant = some g) : TrafficAccounted (s.relabel k hd g) := by
  unfold State.relabel
  split
  · exact h
  · exact trafficAccounted_of_record h rfl rfl rfl (keepsAccount_of_generations hg rfl rfl rfl .inl)

/-- A grant that neither closes nor drains is in OPEN (section 1.2). -/
theorem Phase.eq_opened {ph : Phase} (hc : ph.isClosing = false) (hp : ph.prev = none) : ph = .opened := by
  cases ph with
  | opened => rfl
  | draining => cases hp
  | closing => cases hc

theorem trafficAccounted_cmdModify (k : SlotNo) {s : State} (h : TrafficAccounted s) : TrafficAccounted (cmdModify k s) := by
  unfold cmdModify
  dsimp only
  split
  · exact h
  rename_i g hb
  have hg := State.byHandle_grant hb
  split
  · exact h
  rename_i hclosing
  split
  · exact h
  rename_i hdraining
  split
  · exact h
  split
  · exact h
  split
  · rename_i hm
    refine trafficAccounted_remap h hg (Phase.eq_opened (Bool.eq_false_iff.mpr hclosing) ?_)
    exact Option.not_isSome_iff_eq_none.mp fun hp => hdraining ⟨hp, hm⟩
  · exact trafficAccounted_relabel h hg

/-- A closing, by a CLOSE or by an expiry, of a grant with traffic in flight: both generations stay (R4, R45, R56). -/
theorem trafficAccounted_closes {s u : State} {i : GrantIdx} {g g' : Grant} (h : TrafficAccounted s)
    (hg : s.grants[i].grant = some g) (hcur : g'.cur = g.cur) (hprev : g'.phase.prev = g.phase.prev)
    (hbusy : ¬ g'.idleTraffic = true) (ht : u.tags = s.tags) (hq : u.queue = s.queue)
    (hu : u.grants = s.grants.set i { s.grants[i] with grant := some g' }) : TrafficAccounted u :=
  trafficAccounted_of_record h ht hq hu
    (keepsAccount_of_generations hg rfl hcur hprev fun _ => .inr (Bool.eq_false_iff.mpr hbusy))

/-- A closing of a grant with no traffic in flight: it is freed in the same change (R46, R56). -/
theorem trafficAccounted_closes_freed {s u : State} {i : GrantIdx} {g g' : Grant} (h : TrafficAccounted s)
    (hg : s.grants[i].grant = some g) (hcur : g'.cur = g.cur) (hprev : g'.phase.prev = g.phase.prev)
    (hidle : g'.idleTraffic = true) (ht : u.tags = s.tags) (hq : u.queue = s.queue)
    (hu : u.grants = s.grants.set i { s.grants[i] with grant := some g' }) : TrafficAccounted (u.freeGrant i) := by
  have hi : u.grants[i].grant = some g' := by rw [grants_set_get hu, if_pos rfl]
  refine trafficAccounted_of_record (r := freedRecord u.grants[i]) h (by simp [ht]) (by simp [hq]) ?_
    (keepsAccount_freed hg ?_ rfl)
  · rw [State.freeGrant_grants hi, hu, Vector.set_set]
  · unfold Grant.idleTraffic at hidle ⊢
    rwa [hcur, hprev] at hidle

theorem trafficAccounted_beginClose {s : State} {k : SlotNo} {hd : Handle} {g : Grant} (h : TrafficAccounted s)
    (hg : s.grants[hd.index].grant = some g) : TrafficAccounted (s.beginClose k hd g) := by
  have hu : ((s.setGrant hd.index g.closed).report g.waiting .overtaken).grants
      = s.grants.set hd.index { s.grants[hd.index] with grant := some g.closed } := State.report_grants _ _ _
  unfold State.beginClose
  dsimp only
  split
  · rename_i hidle
    refine trafficAccounted_of_frame ?_ (State.finish_grants _ _ _) (State.finish_tags _ _ _) (State.finish_queue _ _ _)
    exact trafficAccounted_closes_freed (g' := g.closed) h hg rfl rfl hidle (by simp) (by simp) hu
  · rename_i hbusy
    refine trafficAccounted_closes (g' := { g.closed with waiting := some k }) h hg rfl rfl hbusy (by simp) (by simp) ?_
    rw [State.wait_grants, State.setGrant_eq, hu, Vector.set_set]
    simp

theorem trafficAccounted_cmdClose (k : SlotNo) {s : State} (h : TrafficAccounted s) : TrafficAccounted (cmdClose k s) := by
  unfold cmdClose
  dsimp only
  split
  · exact h
  · rename_i g hb
    have hg := State.byHandle_grant hb
    split
    · refine trafficAccounted_ite h ?_
      exact trafficAccounted_of_record h rfl rfl rfl (keepsAccount_of_generations hg rfl rfl rfl .inl)
    · exact trafficAccounted_beginClose h hg

theorem trafficAccounted_cmdRenew (k : SlotNo) {s : State} (h : TrafficAccounted s) : TrafficAccounted (cmdRenew k s) := by
  unfold cmdRenew
  dsimp only
  split
  · exact h
  · rename_i g hb
    refine trafficAccounted_ite h ?_
    exact trafficAccounted_of_record h rfl rfl rfl
      (keepsAccount_of_generations (State.byHandle_grant hb) rfl rfl rfl .inl)

theorem trafficAccounted_leaseExpiry {i : GrantIdx} {s t : State} (h : TrafficAccounted s)
    (he : execLeaseExpiry i s = .next t) : TrafficAccounted t := by
  unfold execLeaseExpiry at he
  split at he
  · exact trafficAccounted_next he h
  · rename_i g hg
    split at he
    · refine trafficAccounted_answerNext he ?_
      split
      · rename_i hidle
        exact trafficAccounted_closes_freed (g' := g.expired) h hg rfl rfl hidle (by simp) (by simp)
          (State.report_grants _ _ _)
      · rename_i hbusy
        exact trafficAccounted_closes (g' := g.expired) h hg rfl rfl hbusy (by simp) (by simp) (State.report_grants _ _ _)
    · exact trafficAccounted_next he h

/-- Time reaches leases, deadlines and park periods only (R54, R104). -/
theorem trafficAccounted_tick {s : State} (h : TrafficAccounted s) : TrafficAccounted s.tick := by
  unfold State.tick
  refine trafficAccounted_ite h ?_
  have hf : ∀ e i n, (TagEntry.tick e).carries i n = e.carries i n := by
    intro e i n
    cases e <;> rfl
  refine trafficAccounted_of_records h (carried_mapTags rfl rfl hf) rfl fun i => ?_
  have hi : (Vector.ofFn fun j : GrantIdx => s.grants[j].tick)[i] = s.grants[i].tick := by simp
  rw [hi]
  unfold Record.tick
  split
  · rename_i g hg
    split
    · exact keepsAccount_of_generations hg rfl rfl rfl .inl
    · exact keepsAccount_refl _
  · exact keepsAccount_refl _

/-! ### The step -/

theorem trafficAccounted_hostAccess {f : State → State} {s t : State} (h : TrafficAccounted s) (he : hostAccess f s = .next t)
    (hg : (f s).grants = s.grants) (ht : (f s).tags = s.tags) (hq : (f s).queue = s.queue) : TrafficAccounted t := by
  obtain rfl | rfl := hostAccess_next he
  · exact h
  · exact trafficAccounted_moderate s (trafficAccounted_of_frame h hg ht hq)

theorem trafficAccounted_engine {isRow : BitVec 16 → Bool} {cmd : SlotNo → State → State} {s t : State}
    (h : TrafficAccounted s) (hc : ∀ k {s}, TrafficAccounted s → TrafficAccounted (cmd k s))
    (he : engine isRow cmd s = .next t) : TrafficAccounted t := by
  obtain rfl | ⟨k, rest, -, -, rfl⟩ := engine_next he
  · exact h
  · exact trafficAccounted_moderate s (hc k (s := { s with order := rest }) h)

theorem trafficAccounted_engine_frame {isRow : BitVec 16 → Bool} {cmd : SlotNo → State → State} {s t : State}
    (h : TrafficAccounted s) (hg : ∀ k s, (cmd k s).grants = s.grants) (ht : ∀ k s, (cmd k s).tags = s.tags)
    (hq : ∀ k s, (cmd k s).queue = s.queue) (he : engine isRow cmd s = .next t) : TrafficAccounted t :=
  trafficAccounted_engine h (fun k _ h => trafficAccounted_of_frame h (hg k _) (ht k _) (hq k _)) he

theorem trafficAccounted_cmdResetRequester (k : SlotNo) {s : State} (h : TrafficAccounted s) :
    TrafficAccounted (cmdResetRequester k s) :=
  trafficAccounted_of_frame (trafficAccounted_cleanRequester h s.slots[k].requester) rfl rfl rfl

theorem trafficAccounted_setRequester {s t : State} (h : TrafficAccounted s) (he : execSetRequester s = .next t) :
    TrafficAccounted t := by
  unfold execSetRequester at he
  refine trafficAccounted_engine_frame ?_ cmdSetRequester_grants cmdSetRequester_tags cmdSetRequester_queue he
  split
  · exact h
  · exact trafficAccounted_grantsBefore _ 8 h

theorem trafficAccounted_presentAccess {p : PortNo} {a : Presented} {s t : State} (h : TrafficAccounted s)
    (he : execPresentAccess p a s = .next t) : TrafficAccounted t := by
  unfold execPresentAccess at he
  split at he
  · exact trafficAccounted_next he h
  · exact trafficAccounted_answerNext he (trafficAccounted_of_frame h (by simp) (by simp) (by simp))

theorem trafficAccounted_holdoffExpiry {s t : State} (h : TrafficAccounted s) (he : execHoldoffExpiry s = .next t) :
    TrafficAccounted t := by
  unfold execHoldoffExpiry at he
  split at he
  · exact trafficAccounted_next he
      (trafficAccounted_ite (trafficAccounted_of_frame h (by simp) (by simp) (by simp)) h)
  · exact trafficAccounted_next he h

theorem trafficAccounted_exec {c : Instr} {s t : State} (h : TrafficAccounted s) (he : exec c s = .next t) :
    TrafficAccounted t := by
  cases c with dsimp only [exec] at he
  | powerOn => exact trafficAccounted_next he (trafficAccounted_of_frame trafficAccounted_reset rfl rfl rfl)
  | linkLost | hotReset => exact trafficAccounted_next he (trafficAccounted_ite (trafficAccounted_leaveUp s) h)
  | functionReset => exact trafficAccounted_next he (trafficAccounted_ite (trafficAccounted_teardown s) h)
  | trainingComplete | creditGrant => exact trafficAccounted_next he (trafficAccounted_ite h h)
  | lrstAssertion => exact trafficAccounted_next he (trafficAccounted_cleanEvery (List.finRange 8) h)
  | lrstDeassertion => exact trafficAccounted_next he h
  | presentAccess => exact trafficAccounted_presentAccess h he
  | tagGrant => exact trafficAccounted_next he (trafficAccounted_tagGrant h)
  | writeGrant => exact trafficAccounted_writeGrant h he
  | writeLeaving => exact trafficAccounted_writeLeaving h he
  | memoryReadSend | messageSend =>
    refine trafficAccounted_next he ?_
    (repeat' split) <;> exact h
  | completionPart => exact trafficAccounted_completionPart h he
  | deadlineExpiry => exact trafficAccounted_deadlineExpiry h he
  | parkPeriodEnd => exact trafficAccounted_parkPeriodEnd h he
  | leaseExpiry => exact trafficAccounted_leaseExpiry h he
  | holdoffExpiry => exact trafficAccounted_holdoffExpiry h he
  | openGrant => exact trafficAccounted_engine h trafficAccounted_cmdOpen he
  | modify => exact trafficAccounted_engine h trafficAccounted_cmdModify he
  | close => exact trafficAccounted_engine h trafficAccounted_cmdClose he
  | renew => exact trafficAccounted_engine h trafficAccounted_cmdRenew he
  | query => exact trafficAccounted_engine_frame h cmdQuery_grants cmdQuery_tags cmdQuery_queue he
  | lookup => exact trafficAccounted_engine_frame h cmdLookup_grants cmdLookup_tags cmdLookup_queue he
  | fence => exact trafficAccounted_engine_frame h cmdFence_grants cmdFence_tags cmdFence_queue he
  | setRequester => exact trafficAccounted_setRequester h he
  | queryRequester =>
    exact trafficAccounted_engine_frame h cmdQueryRequester_grants cmdQueryRequester_tags cmdQueryRequester_queue he
  | resume => exact trafficAccounted_engine_frame h cmdResume_grants cmdResume_tags cmdResume_queue he
  | resetRequester => exact trafficAccounted_engine h trafficAccounted_cmdResetRequester he
  | setTiming => exact trafficAccounted_engine_frame h cmdSetTiming_grants cmdSetTiming_tags cmdSetTiming_queue he
  | badop => exact trafficAccounted_engine_frame h cmdBadop_grants cmdBadop_tags cmdBadop_queue he
  | submission | cancel => exact trafficAccounted_hostAccess h he (by simp) (by simp) (by simp)
  | hostWindowWrite =>
    refine trafficAccounted_hostAccess h he ?_ ?_ ?_ <;> split <;> simp
  | acknowledge | enable | setEnable | clearEnable => exact trafficAccounted_hostAccess h he rfl rfl rfl
  | masterEnable => exact trafficAccounted_hostAccess h he (by simp) (by simp) (by simp)
  | expiredSetClear => exact trafficAccounted_hostAccess h he rfl rfl rfl

theorem trafficAccounted_step {s t : State} (h : TrafficAccounted s) (hs : step s = .next t) : TrafficAccounted t := by
  unfold step at hs
  split at hs
  · exact trafficAccounted_next hs (trafficAccounted_tick h)
  · rename_i c rest _
    exact trafficAccounted_exec (s := { s with pending := rest }) h hs

/-! ### The bound of R28 -/

/-- Two predicates that exclude each other hold of no more elements than there are. -/
theorem countP_add_countP_le {α : Type} {p q : α → Bool} (h : ∀ a, p a = true → q a = false) (l : List α) :
    l.countP p + l.countP q ≤ l.length := by
  rw [List.length_eq_countP_add_countP p (l := l)]
  have := List.countP_mono_left (l := l) (p := q) (q := fun a => ¬ p a) fun a _ hqa => by
    cases hpa : p a
    · rfl
    · rw [h a hpa] at hqa
      cases hqa
  omega

/-- At most every tag and every queue entry carries one of two different generations (R91, R113). -/
theorem carried_add_le {s : State} (hq : s.queue.length ≤ 16) (i : GrantIdx) {n m : GenNo} (hne : n ≠ m) :
    carried s i n + carried s i m ≤ 48 := by
  have ht : tagsCarrying s i n + tagsCarrying s i m ≤ 32 := by
    rw [tagsCarrying_eq, tagsCarrying_eq]
    have := countP_add_countP_le (p := TagEntry.carries i n) (q := TagEntry.carries i m) (l := s.tags.toList) fun e he => by
      cases e with
      | waiting r u v =>
        simp only [TagEntry.carries, Bool.and_eq_true, beq_iff_eq] at he
        simp [TagEntry.carries, he, hne]
      | free | parked => rfl
    simpa using this
  have he : entriesCarrying s i n + entriesCarrying s i m ≤ s.queue.length :=
    countP_add_countP_le (l := s.queue) fun e he => by
      simp only [Bool.and_eq_true, beq_iff_eq] at he
      simp [he, hne]
  unfold carried
  omega

/-- R28 of one grant: at most 48 in flight, and a previous generation that carries traffic under a number of its own. -/
theorem inFlight_le {s : State} (h : TrafficAccounted s) {i : GrantIdx} {g : Grant} (hg : s.grants[i].grant = some g) :
    inFlight g ≤ 48 ∧ ∀ p, previous g = some p → 1 ≤ p.count ∧ p.number ≠ g.cur.number := by
  obtain ⟨hacc, hq⟩ := (trafficAccounted_iff s).mp h
  obtain ⟨hheld, hsound, -⟩ := (accounts_some hg).mp (hacc i)
  have hne : ∀ p, g.phase.prev = some p → p.number ≠ g.cur.number := fun p hp => by
    rw [← (hsound p hp).1]
    exact generation_ne_next _
  unfold inFlight
  rw [← previous_eq]
  refine ⟨?_, fun p hp => ⟨(hsound p hp).2, hne p hp⟩⟩
  have hcur : carried s i g.cur.number = g.cur.count := by rw [hheld, Grant.heldFor, if_pos rfl]
  cases hp : g.phase.prev with
  | none =>
    have := carried_add_le hq i (generation_ne_next g.cur.number)
    rw [Option.elim_none]
    omega
  | some p =>
    have hprev : carried s i p.number = p.count := by
      simp [hheld, Grant.heldFor, hp, (hne p hp).symm]
    have := carried_add_le hq i (hne p hp)
    rw [Option.elim_some]
    omega

/-- Settles O51: each access that joins the traffic or leaves it moves the count that it carries, and no other command
touches either side. -/
theorem stepKeepsTrafficAccounted : Obligations.StepKeepsTrafficAccounted := by
  intro s h
  exact ⟨fun t hs => trafficAccounted_step h hs, fun i g hg => inFlight_le h hg⟩

end Sys2Proof.Machine
end

section
/-! PROOF. MODIFY, check by check (R36 to R39). -/

namespace Sys2Proof.Machine

open Sys2Proof.Safety

/-! ### The checks of R36, in order -/

theorem cmdModify_stale {k : SlotNo} {s : State} (h : staleHandle s s.slots[k]) : cmdModify k s = s.endSlot k .stale := by
  unfold cmdModify
  dsimp only
  rw [State.byHandle_stale h]

theorem cmdModify_state {k : SlotNo} {s : State} {i : GrantIdx} {g : Grant} (h : named s s.slots[k] i g)
    (hc : g.phase.isClosing = true) : cmdModify k s = s.endSlot k .state := by
  unfold cmdModify
  dsimp only
  rw [(State.byHandle_named h).2]
  dsimp only
  rw [if_pos hc]

/-- A grant that is neither OPEN nor CLOSING has a previous generation (R1). -/
theorem Phase.prev_isSome_iff {ph : Phase} (hc : ph.isClosing = false) : ph.prev.isSome = true ↔ ph ≠ .opened := by
  cases ph with
  | opened => simp [Phase.prev]
  | draining => simp [Phase.prev]
  | closing => cases hc

theorem cmdModify_draining {k : SlotNo} {s : State} {i : GrantIdx} {g : Grant} (h : named s s.slots[k] i g)
    (hc : g.phase.isClosing = false) (hd : g.phase ≠ .opened) (hm : mapsAnew s.slots[k]) :
    cmdModify k s = s.endSlot k .draining := by
  unfold cmdModify
  dsimp only
  rw [(State.byHandle_named h).2]
  dsimp only
  rw [if_neg (Bool.eq_false_iff.mp hc), if_pos ⟨(Phase.prev_isSome_iff hc).mpr hd, (namesMapping_iff _).mpr hm⟩]

/-- A MODIFY that passes the first three checks: the arguments, the overlap of a new length, and whether a mapping field is
supplied decide (R36). -/
theorem cmdModify_admitted {k : SlotNo} {s : State} {i : GrantIdx} {g : Grant} (h : named s s.slots[k] i g)
    (ha : g.phase = .opened ∨ (g.phase.isClosing = false ∧ ¬ mapsAnew s.slots[k])) :
    cmdModify k s =
      if !s.slots[k].modifyArgsGood g then s.endSlot k .badarg
      else if present s.slots[k] 1 ∧ s.overlaps (some i) g.localBase.toNat s.slots[k].length then s.endSlot k .overlap
      else if namesMapping s.slots[k].presence then s.remap k { index := i, seq := s.grants[i].seq } g
      else s.relabel k { index := i, seq := s.grants[i].seq } g := by
  obtain ⟨hh, hb⟩ := State.byHandle_named h
  have hstate : ¬ g.phase.isClosing = true := by
    obtain ho | ⟨hc, -⟩ := ha
    · rw [ho]
      exact Bool.false_ne_true
    · exact Bool.eq_false_iff.mp hc
  have hdraining : ¬ (g.phase.prev.isSome = true ∧ namesMapping s.slots[k].presence = true) := by
    rintro ⟨hp, hm⟩
    obtain ho | ⟨-, hn⟩ := ha
    · rw [ho] at hp
      cases hp
    · exact hn ((namesMapping_iff _).mp hm)
  unfold cmdModify
  dsimp only
  rw [hb]
  dsimp only
  rw [if_neg hstate, if_neg hdraining, hh, Slot.names_eq]

theorem cmdModify_badarg {k : SlotNo} {s : State} {i : GrantIdx} {g : Grant} (h : named s s.slots[k] i g)
    (ha : g.phase = .opened ∨ (g.phase.isClosing = false ∧ ¬ mapsAnew s.slots[k])) (hbad : ¬ modifyGood s.slots[k] g) :
    cmdModify k s = s.endSlot k .badarg := by
  rw [← Slot.modifyArgsGood_iff] at hbad
  rw [cmdModify_admitted h ha, if_pos (by simpa using hbad)]

theorem cmdModify_overlap {k : SlotNo} {s : State} {i : GrantIdx} {g : Grant} (h : named s s.slots[k] i g)
    (ha : g.phase = .opened ∨ (g.phase.isClosing = false ∧ ¬ mapsAnew s.slots[k])) (hgood : modifyGood s.slots[k] g)
    (hl : present s.slots[k] 1 = true) (hover : ¬ clearOf s (some i) g.localBase.toNat s.slots[k].args[3].toNat) :
    cmdModify k s = s.endSlot k .overlap := by
  rw [← Slot.modifyArgsGood_iff] at hgood
  rw [← State.overlaps_iff, Bool.not_eq_false] at hover
  rw [cmdModify_admitted h ha, if_neg (by simp [-Fin.getElem_fin, hgood]), if_pos ⟨hl, hover⟩]

/-! ### A lease-or-tag MODIFY (R39) -/

/-- The arguments of a MODIFY without a mapping field are good when its presence set is and its lease can be formed (R37). -/
theorem modifyGood_of_leaseAndTag {sl : Slot} {g : Grant} {l : Lease} {tag : Word} (hp : presenceGood sl 6)
    (hm : ¬ mapsAnew sl) (hlt : leaseAndTag sl g l tag) : modifyGood sl g := by
  obtain ⟨hl, -⟩ := hlt
  refine ⟨hp, fun h4 => ⟨l, ?_⟩, fun h => absurd h hm⟩
  rwa [if_pos h4] at hl

/-- Without a mapping field no new length is supplied (R35). -/
theorem present_length_of_not_mapsAnew {sl : Slot} (hm : ¬ mapsAnew sl) : ¬ present sl 1 = true := by
  intro h1
  refine hm ((namesMapping_iff sl).mp ?_)
  unfold namesMapping
  rw [Slot.names_eq sl 1, h1, Bool.or_true, Bool.true_or, Bool.true_or]

theorem cmdModify_relabel {k : SlotNo} {s : State} {i : GrantIdx} {g : Grant} {l : Lease} {tag : Word}
    (h : named s s.slots[k] i g) (hc : g.phase.isClosing = false) (hp : presenceGood s.slots[k] 6)
    (hm : ¬ mapsAnew s.slots[k]) (hlt : leaseAndTag s.slots[k] g l tag) :
    cmdModify k s = (s.setGrant i { g with lease := l, tag := tag }).finish k
      (resultModify { index := i, seq := s.grants[i].seq } g.cur.number) := by
  have hgood := Slot.modifyArgsGood_iff.mpr (modifyGood_of_leaseAndTag hp hm hlt)
  rw [cmdModify_admitted h (.inr ⟨hc, hm⟩), if_neg (by simp [-Fin.getElem_fin, hgood]),
    if_neg fun ho => present_length_of_not_mapsAnew hm ho.1, if_neg fun hn => hm ((namesMapping_iff _).mp hn)]
  obtain ⟨hl, rfl⟩ := hlt
  unfold State.relabel
  rw [Slot.nextLease_iff.mpr hl]
  rfl

/-- The result area of a MODIFY: the handle and the generation number (R180). -/
theorem writeResult_modify (i : GrantIdx) (q : Seq) (n : GenNo) (area : Vector Word 32) :
    writeResult (resultModify { index := i, seq := q } n) area
      = (area.set 0 (handleWord i q)).set 3 (n.setWidth 32) := by
  unfold resultModify
  iterate 2 rw [writeResult_cons _ _ _ (by decide)]
  rw [writeResult_nil, Handle.word_eq, put_gen]

/-- MODIFY is executed at the front of the submission order (R141). -/
theorem exec_modify_atFront {s : State} {k : SlotNo} {rest : List SlotNo} (h : atFront s k rest 0x0002#16) :
    exec .modify s = .next (moderate s (cmdModify k { s with order := rest })) := by
  have he : execModify s = answerNext s (cmdModify k { s with order := rest }) := engine_eq h rfl
  exact he

/-- Settles O26: the checks of R36 pass, and the lease and the tag are replaced where the grant stands. -/
theorem leaseOrTagModify : Obligations.LeaseOrTagModify := by
  intro s k rest i g l tag hf hn hc hp hm hlt
  refine ⟨_, exec_modify_atFront hf, ?_⟩
  rw [cmdModify_relabel (s := { s with order := rest }) hn hc hp hm hlt]
  apply moderate_settles
  rw [State.finish_eq, writeResult_modify]
  rfl

/-- Settles O28: the first of the five checks that fails gives the status. -/
theorem modifyRefusals : Obligations.ModifyRefusals := by
  intro s k rest hf
  have refused : ∀ {st : Status}, cmdModify k { s with order := rest } = ({ s with order := rest } : State).endSlot k st →
      ∃ t, exec .modify s = .next t ∧ endsWith s k rest st t := by
    intro st hend
    refine ⟨_, exec_modify_atFront hf, ?_⟩
    rw [hend]
    exact endSlot_endsWith
  refine ⟨fun hstale => refused (cmdModify_stale hstale), fun i g hn =>
    ⟨fun hc => refused (cmdModify_state hn hc), fun hc hd hm => refused (cmdModify_draining hn hc hd hm), fun ha =>
      ⟨fun hbad => refused (cmdModify_badarg hn ha hbad), fun hgood hl hover => ?_⟩⟩⟩
  exact refused (cmdModify_overlap hn ha hgood hl hover)

end Sys2Proof.Machine
end

section
/-! PROOF. RENEW, check by check (R60). -/

namespace Sys2Proof.Machine

open Sys2Proof.Safety

/-! ### The checks of R60, in order -/

theorem cmdRenew_stale {k : SlotNo} {s : State} (h : staleHandle s s.slots[k]) : cmdRenew k s = s.endSlot k .stale := by
  unfold cmdRenew
  dsimp only
  rw [State.byHandle_stale h]

/-- A RENEW of a grant: its state and the kind of its lease decide (R60). -/
theorem cmdRenew_named {k : SlotNo} {s : State} {i : GrantIdx} {g : Grant} (h : named s s.slots[k] i g) :
    cmdRenew k s =
      if g.phase.isClosing = true ∨ g.lease.isTimed = false then s.endSlot k .state
      else (s.setGrant i { g with lease := g.lease.renewed s.slots[k].period }).finish k
        (resultRenew { index := i, seq := s.grants[i].seq } (g.lease.renewed s.slots[k].period)) := by
  obtain ⟨hh, hb⟩ := State.byHandle_named h
  unfold cmdRenew
  dsimp only
  rw [hb]
  dsimp only
  rw [hh]

theorem Lease.isTimed_eq_false_iff {l : Lease} : l.isTimed = false ↔ l = .untimed := by
  cases l with
  | untimed => simp [Lease.isTimed]
  | timed => simp [Lease.isTimed]

theorem cmdRenew_state {k : SlotNo} {s : State} {i : GrantIdx} {g : Grant} (h : named s s.slots[k] i g)
    (hr : g.phase.isClosing = true ∨ g.lease = .untimed) : cmdRenew k s = s.endSlot k .state := by
  rw [← Lease.isTimed_eq_false_iff] at hr
  rw [cmdRenew_named h, if_pos hr]

/-! ### The lease renewed -/

/-- The period in force is the supplied one, or the old one where 0 is supplied, and the lease runs it from its start (R60). -/
theorem Lease.renewed_timed (period : BitVec 16) (kind : TimedKind) (old : BitVec 16) (u : Nat) :
    (Lease.timed kind old u).renewed period =
      .timed kind (if period = 0#16 then old else period) ((if period = 0#16 then old else period).toNat * 100) := rfl

theorem cmdRenew_restarts {k : SlotNo} {s : State} {i : GrantIdx} {g : Grant} {kind : TimedKind} {old : BitVec 16} {u : Nat}
    (h : named s s.slots[k] i g) (hc : g.phase.isClosing = false) (hl : g.lease = .timed kind old u) :
    cmdRenew k s = (s.setGrant i { g with lease := (Lease.timed kind old u).renewed s.slots[k].period }).finish k
      (resultRenew { index := i, seq := s.grants[i].seq } ((Lease.timed kind old u).renewed s.slots[k].period)) := by
  have hpass : ¬ (g.phase.isClosing = true ∨ g.lease.isTimed = false) := by
    simp [hc, hl, Lease.isTimed]
  rw [cmdRenew_named h, if_neg hpass, hl]

/-- A lease period as a word. -/
theorem put_period (p : BitVec 16) : put 0 16 p.toNat = p.setWidth 32 := by
  simp [put]

/-- The lease kind in bits 7:0 (R180). -/
theorem put_leaseCode (kind : TimedKind) (p : BitVec 16) (u : Nat) :
    put 0 8 (Lease.timed kind p u).code = kindWord kind := by
  cases kind <;> rfl

/-- The result area of a RENEW: the handle, the lease kind and the period in force (R180). -/
theorem writeResult_renew (i : GrantIdx) (q : Seq) (kind : TimedKind) (p : BitVec 16) (u : Nat) (area : Vector Word 32) :
    writeResult (resultRenew { index := i, seq := q } (.timed kind p u)) area
      = ((area.set 0 (handleWord i q)).set 11 (kindWord kind)).set 12 (p.setWidth 32) := by
  unfold resultRenew
  iterate 3 rw [writeResult_cons _ _ _ (by decide)]
  rw [writeResult_nil, Handle.word_eq, put_leaseCode, Lease.periodField, put_period]

/-! ### RENEW -/

/-- RENEW is executed at the front of the submission order (R141). -/
theorem exec_renew_atFront {s : State} {k : SlotNo} {rest : List SlotNo} (h : atFront s k rest 0x0004#16) :
    exec .renew s = .next (moderate s (cmdRenew k { s with order := rest })) := by
  have he : execRenew s = answerNext s (cmdRenew k { s with order := rest }) := engine_eq h rfl
  exact he

/-- Settles O31: the two checks of R60 refuse, and a grant that passes them has its lease restarted where it stands. -/
theorem renewRestartsLease : Obligations.RenewRestartsLease := by
  intro s k rest hf
  refine ⟨fun hstale => ⟨_, exec_renew_atFront hf, ?_⟩, fun i g hn =>
    ⟨fun hr => ⟨_, exec_renew_atFront hf, ?_⟩, ?_⟩⟩
  · rw [cmdRenew_stale (s := { s with order := rest }) hstale]
    exact endSlot_endsWith
  · rw [cmdRenew_state (s := { s with order := rest }) hn hr]
    exact endSlot_endsWith
  · rintro kind old p u hc hl rfl
    refine ⟨_, exec_renew_atFront hf, ?_⟩
    rw [cmdRenew_restarts (s := { s with order := rest }) hn hc hl, Lease.renewed_timed, Slot.period_eq]
    apply moderate_settles
    rw [State.finish_eq, writeResult_renew]
    rfl

end Sys2Proof.Machine
end

section
/-! PROOF. The requester ports under LRST and under the commands that read or clean one: a word of a report as the sum of its
fields (R178), the words of the head access and of the fault slot (R180), and the cleaning of a requester (R85 to R87). -/

namespace Sys2Proof.Machine

open Sys2Proof.Safety

/-! ### A word as the sum of its fields -/

theorem put_eq_ofNat {lo width v : Nat} (h : lo + width ≤ 32) :
    put lo width v = BitVec.ofNat 32 (v % 2 ^ width * 2 ^ lo) := by
  rw [← put_toNat v h, BitVec.ofNat_toNat, BitVec.setWidth_eq]

theorem put_zero {width v : Nat} (h : width ≤ 32) : put 0 width v = BitVec.ofNat 32 (v % 2 ^ width) := by
  rw [put_eq_ofNat (by omega), pow_zero, mul_one]

/-- A field above what a word holds so far adds its place value. -/
theorem or_put {n lo width v : Nat} (hn : n < 2 ^ lo) (h : lo + width ≤ 32) :
    BitVec.ofNat 32 n ||| put lo width v = BitVec.ofNat 32 (n + v % 2 ^ width * 2 ^ lo) := by
  have hn32 : n < 2 ^ 32 := lt_of_lt_of_le hn (Nat.pow_le_pow_right (by norm_num) (by omega))
  have hword : (BitVec.ofNat 32 n).toNat = n := by rw [BitVec.toNat_ofNat, Nat.mod_eq_of_lt hn32]
  have hsum : (BitVec.ofNat 32 n ||| put lo width v).toNat = n + v % 2 ^ width * 2 ^ lo := by
    rw [or_toNat (n := lo) (by rwa [hword]) (by rw [put_toNat _ h]; exact Nat.dvd_mul_left _ _), hword, put_toNat _ h]
  rw [← hsum, BitVec.ofNat_toNat, BitVec.setWidth_eq]

theorem flag_eq_put (lo : Nat) (b : Bool) : flag lo b = put lo 1 (bit b) := by
  cases b <;> rfl

theorem bit_mod (b : Bool) : bit b % 2 ^ 1 = bit b := by
  cases b <;> rfl

/-- The field of a value that may be absent holds the value, or 0. -/
theorem optionField_mod {width : Nat} (o : Option (BitVec width)) (lo : Nat) :
    o.elim 0 BitVec.toNat % 2 ^ width * 2 ^ lo = o.elim 0 fun v => v.toNat * 2 ^ lo := by
  cases o with
  | none => simp
  | some v => simp [Nat.mod_eq_of_lt v.isLt]

theorem RunState.code_eq (r : RunState) : r.code = bit (r == .halted) := by
  cases r <;> rfl

theorem FaultPolicy.code_eq (p : FaultPolicy) : p.code = bit (p == .halt) := by
  cases p <;> rfl

theorem Result.code_mod (r : Result) : r.code % 2 ^ 4 = resultValue r := by
  cases r <;> rfl

theorem kindCode_mod (k : AccessKind) : kindCode k % 2 ^ 1 = kindNumber k := by
  cases k <;> rfl

/-! ### What is reported of a port (R180) -/

theorem portWord_eq (q : Port) :
    put 0 1 q.run.code ||| put 1 1 q.policy.code ||| put 8 4 q.readLimit ||| put 16 4 q.outstanding
      ||| put 24 8 q.labels.toNat = portWord q := by
  rw [put_zero (by norm_num)]
  iterate 4 rw [or_put (by omega) (by norm_num)]
  rw [RunState.code_eq, FaultPolicy.code_eq, bit_mod, bit_mod, Nat.mod_eq_of_lt q.labels.isLt, pow_one]
  rfl

theorem headReadWord_eq (l : Label) (n : Nat) :
    flag 0 true ||| put 1 1 (kindCode .read) ||| put 4 3 l.toNat ||| put 16 10 n
      = BitVec.ofNat 32 (1 + l.toNat * 2 ^ 4 + n % 2 ^ 10 * 2 ^ 16) := by
  rw [show flag 0 true ||| put 1 1 (kindCode .read) = BitVec.ofNat 32 1 from rfl]
  iterate 2 rw [or_put (by omega) (by norm_num)]
  rw [Nat.mod_eq_of_lt l.isLt]

/-- A WRITE at the head has no label, and its field is 0 (R65, R180). -/
theorem headWriteWord_eq (n : Nat) :
    flag 0 true ||| put 1 1 (kindCode .write) ||| 0#32 ||| put 16 10 n = BitVec.ofNat 32 (3 + n % 2 ^ 10 * 2 ^ 16) := by
  rw [show flag 0 true ||| put 1 1 (kindCode .write) ||| 0#32 = BitVec.ofNat 32 3 from rfl,
    or_put (by omega) (by norm_num)]

theorem writeResult_head (q : Port) (ws : List ResultWord) (area : Vector Word 32) :
    writeResult (resultHead q ++ ws) area = writeResult ws (headReported q area) := by
  unfold resultHead headReported
  cases q.head with
  | none => rfl
  | some a =>
    dsimp only
    iterate 2 rw [List.cons_append, writeResult_cons _ _ _ (by decide)]
    cases a with
    | read addr n l =>
      dsimp only
      rw [← headReadWord_eq]
      rfl
    | write addr n data =>
      dsimp only
      rw [← headWriteWord_eq]
      rfl

/-- The word at +0x8C of a captured fault, from the fields of its label and its generation number, each absent or not. -/
theorem faultWord_eq {f : FaultRecord} {label gen : Word} (hl : label = put 12 3 (f.label.elim 0 BitVec.toNat))
    (hg : gen = put 20 4 (f.generation.elim 0 BitVec.toNat)) :
    flag 0 true ||| put 4 4 f.result.code ||| put 8 1 (kindCode f.kind) ||| flag 9 f.label.isSome ||| label
        ||| flag 16 f.handle.isSome ||| flag 17 f.generation.isSome ||| gen
      = BitVec.ofNat 32 (1 + resultValue f.result * 2 ^ 4 + kindNumber f.kind * 2 ^ 8
          + bit f.label.isSome * 2 ^ 9 + f.label.elim 0 (fun l => l.toNat * 2 ^ 12)
          + bit f.handle.isSome * 2 ^ 16 + bit f.generation.isSome * 2 ^ 17
          + f.generation.elim 0 (fun n => n.toNat * 2 ^ 20)) := by
  rw [hl, hg, show flag 0 true = BitVec.ofNat 32 1 from rfl]
  simp only [flag_eq_put]
  iterate 7 rw [or_put (by omega) (by norm_num)]
  rw [Result.code_mod, kindCode_mod, bit_mod, bit_mod, bit_mod, optionField_mod, optionField_mod]

theorem writeResult_fault (q : Port) (area : Vector Word 32) :
    writeResult (resultFault q) area = faultReported q area := by
  unfold resultFault faultReported
  cases q.fault with
  | none =>
    dsimp only
    rw [writeResult_cons _ _ _ (by decide), writeResult_nil, put_eq_ofNat (by norm_num)]
  | some f =>
    have hsize : put 0 10 f.length ||| put 16 8 q.overflow
        = BitVec.ofNat 32 (f.length % 2 ^ 10 + q.overflow % 2 ^ 8 * 2 ^ 16) := by
      rw [put_zero (by norm_num), or_put (by omega) (by norm_num)]
    dsimp only
    iterate 4 rw [writeResult_cons _ _ _ (by decide)]
    rw [writeResult_nil, hsize, faultWord_eq]
    · cases f.handle with
      | none => rfl
      | some h =>
        dsimp only
        rw [Handle.word_eq]
        rfl
    · cases f.label <;> rfl
    · cases f.generation <;> rfl

/-- QUERY-REQUESTER writes the port's own word, then the head access, then the fault slot (R83). -/
theorem writeResult_queryRequester (q : Port) (area : Vector Word 32) :
    writeResult (resultQueryRequester q) area = faultReported q (headReported q (area.set 0 (portWord q))) := by
  unfold resultQueryRequester
  rw [writeResult_cons _ _ _ (by decide), portWord_eq, writeResult_head, writeResult_fault]

theorem writeResult_resetRequester (detached : Nat) (discarded : Bool) (area : Vector Word 32) :
    writeResult (resultResetRequester detached discarded) area
      = area.set 0 (BitVec.ofNat 32 (detached % 16 + bit discarded * 2 ^ 8)) := by
  unfold resultResetRequester
  rw [writeResult_cons _ _ _ (by decide), writeResult_nil, put_zero (by norm_num), flag_eq_put,
    or_put (by omega) (by norm_num), bit_mod]
  rfl

/-! ### One requester cleaned (R85) -/

theorem TagEntry.detachFor_eq (p : PortNo) (e : TagEntry) : e.detachFor p = letGo (fun q => q == p) e := by
  cases e with
  | free => rfl
  | parked => rfl
  | waiting r i u => simp [TagEntry.detachFor, letGo]

theorem State.cleanRequester_eq (s : State) (p : PortNo) : s.cleanRequester p = { s with
    ports := s.ports.set p (cleanPort s.ports[p])
    tags := Vector.ofFn fun n : TagNo => letGo (fun q => q == p) s.tags[n] } := by
  unfold State.cleanRequester
  simp only [TagEntry.detachFor_eq]
  rfl

/-! ### LRST and the commands -/

/-- Settles O10: the ports and tags are those that all eight requesters cleaned in turn leave. -/
theorem lrstCleansEveryRequester : Obligations.LrstCleansEveryRequester := by
  intro s
  have hexec : exec .lrstAssertion s = .next { (List.finRange 8).foldl State.cleanRequester s with lrst := true } := rfl
  rw [hexec, State.cleanEvery_eq]

/-- QUERY-REQUESTER is executed at the front of the submission order (R141). -/
theorem exec_queryRequester_atFront {s : State} {k : SlotNo} {rest : List SlotNo} (h : atFront s k rest 0x0009#16) :
    exec .queryRequester s = .next (moderate s (cmdQueryRequester k { s with order := rest })) := by
  have he : execQueryRequester s = answerNext s (cmdQueryRequester k { s with order := rest }) := engine_eq h rfl
  exact he

/-- Settles O37: QUERY-REQUESTER only writes its report into its slot. -/
theorem queryRequesterReportsPort : Obligations.QueryRequesterReportsPort := by
  rintro s k rest _ hf rfl
  refine ⟨_, exec_queryRequester_atFront hf, ?_⟩
  rw [← writeResult_queryRequester]
  exact finish_settles

/-- RESUME is executed at the front of the submission order (R141). -/
theorem exec_resume_atFront {s : State} {k : SlotNo} {rest : List SlotNo} (h : atFront s k rest 0x000A#16) :
    exec .resume s = .next (moderate s (cmdResume k { s with order := rest })) := by
  have he : execResume s = answerNext s (cmdResume k { s with order := rest }) := engine_eq h rfl
  exact he

/-- Settles O38: one change of the port, and the report is of the port before it. -/
theorem resumeEmptiesFaultSlot : Obligations.ResumeEmptiesFaultSlot := by
  rintro s k rest _ hf rfl
  refine ⟨_, exec_resume_atFront hf, ?_⟩
  apply moderate_settles
  rw [← writeResult_fault, cmdResume, State.finish_eq]
  rfl

/-- RESET-REQUESTER is executed at the front of the submission order (R141). -/
theorem exec_resetRequester_atFront {s : State} {k : SlotNo} {rest : List SlotNo} (h : atFront s k rest 0x000B#16) :
    exec .resetRequester s = .next (moderate s (cmdResetRequester k { s with order := rest })) := by
  have he : execResetRequester s = answerNext s (cmdResetRequester k { s with order := rest }) := engine_eq h rfl
  exact he

/-- Settles O39: the requester is cleaned, and the report counts its reads as they stood before. -/
theorem resetRequesterDetaches : Obligations.ResetRequesterDetaches := by
  rintro s k rest _ hf rfl
  refine ⟨_, exec_resetRequester_atFront hf, ?_⟩
  apply moderate_settles
  rw [← writeResult_resetRequester, cmdResetRequester, State.finish_eq, State.cleanRequester_eq]
  rfl

end Sys2Proof.Machine
end

section
/-! PROOF. Host reads and the outstanding read table: how the tag allocator issues a read (R98), and what a completion part does
to the tag that it names, by the state of that tag (R100 to R102, R107, R109). -/

namespace Sys2Proof.Machine

open Sys2Proof.Safety

/-! ### The issue of a read -/

/-- The effects of an effective READ lookup on its grant (R19, R20). -/
theorem Grant.counted_read (g : Grant) : g.counted .read = { g with
    cur := { g.cur with count := g.cur.count + 1 }
    lease := leaseUsed g.lease
    readCount := min 4294967295 (g.readCount + 1) } := by
  rw [← Lease.used_eq]
  rfl

/-- A grant goes to the first eligible port, with the lowest FREE tag (R96, R98). -/
theorem State.tagGrant_eq {s : State} {p : PortNo} {n : TagNo} {a : LocalAddr} {len : Nat} {l : Label}
    (hp : firstAfter s.tagLast p (mayRead s)) (hh : s.ports[p].head = some (.read a len l)) (hn : lowestTag s n) :
    s.tagGrant = moderate s (({ s with tagLast := p } : State).grantRead p n a len l) := by
  have hf : (portsAfter s.tagLast).find? s.readEligible = some p := by
    rw [funext (State.readEligible_eq s)]
    exact find_portsAfter hp
  unfold State.tagGrant
  simp only [hf, hh, State.lowestFreeTag_eq hn]

/-- The effective lookup that admits a head read issues it (R97, R98). -/
theorem State.grantRead_admits {s : State} {p : PortNo} {a : LocalAddr} {len : Nat} {l : Label} {i : GrantIdx} {g : Grant}
    (h : admits s p (.read a len l) i g) (n : TagNo) :
    s.grantRead p n a len l = s.issueRead p n len l i g g.cur.number (hostOf g a) := by
  unfold State.grantRead
  rw [State.lookupAccess_admits h]
  obtain ⟨-, -, ⟨hg, -⟩, -⟩ := h
  simp only [hg]
  rfl

/-- The issue of a read sets no cause, so it is not moderated (R156, R157). -/
theorem moderate_issueRead (s : State) (p q : PortNo) (n : TagNo) (len : Nat) (l : Label) (i : GrantIdx) (g : Grant)
    (k : GenNo) (host : HostAddr) :
    moderate s (({ s with tagLast := q } : State).issueRead p n len l i g k host)
      = ({ s with tagLast := q } : State).issueRead p n len l i g k host :=
  moderate_same rfl rfl rfl

/-- Settles O13: the issue sets no cause, so the whole change is that of R98. -/
theorem tagGrantIssuesRead : Obligations.TagGrantIssuesRead := by
  intro s p n a len l i g hp hh hn ha
  have hexec : exec .tagGrant s = .next s.tagGrant := rfl
  have hissue := State.grantRead_admits (s := { s with tagLast := p }) ha n
  rw [hexec, State.tagGrant_eq hp hh hn, hissue, moderate_issueRead, State.issueRead, Grant.counted_read]
  rfl

/-! ### A completion part, by the state of its tag -/

/-- A part for one of the 32 tags is taken while the link is UP (R100, R173). -/
theorem exec_completionPart_tag {s : State} (hup : s.link.up = true) (n : TagNo) (x : Completion) :
    exec (.completionPart n.val x) s = .next (moderate s (s.takePart n (partOf x))) := by
  have hexec : exec (.completionPart n.val x) s = execCompletionPart n.val x s := rfl
  rw [hexec, execCompletionPart, if_pos hup, dif_pos n.isLt]
  rfl

/-- A part for a tag above 31 is stray (R109). -/
theorem exec_completionPart_above {s : State} (hup : s.link.up = true) {n : Nat} (hn : ¬ n < 32) (x : Completion) :
    exec (.completionPart n x) s = .next (moderate s (s.setCauses causeStray)) := by
  have hexec : exec (.completionPart n x) s = execCompletionPart n x s := rfl
  rw [hexec, execCompletionPart, if_pos hup, dif_neg hn]
  rfl

theorem State.takePart_waiting {s : State} {n : TagNo} {r : ReadInfo} {i u : Nat} (h : s.tags[n] = .waiting r i u)
    (part : Part) : s.takePart n part = s.partOnWaiting n r i u part := by
  simp only [State.takePart, h]

theorem State.takePart_parked {s : State} {n : TagNo} {i u : Nat} (h : s.tags[n] = .parked i u) (part : Part) :
    s.takePart n part = s.setTag n .free := by
  simp only [State.takePart, h]

theorem State.takePart_free {s : State} {n : TagNo} (h : s.tags[n] = .free) (part : Part) :
    s.takePart n part = s.setCauses causeStray := by
  simp only [State.takePart, h]

/-- Success of at most 512 bytes is handed over with its bytes (R173). -/
theorem partOf_success {data : List Byte} (h : data.length ≤ 512) : partOf (.success data) = .success data :=
  if_neg (Nat.not_lt.mpr h)

/-! ### Parts on a WAITING tag -/

/-- The beat of a part that its read has room for, and the bytes received (R100). -/
theorem State.takeBytes_eq (n : TagNo) (r : ReadInfo) (i u : Nat) (data : List Byte) (s : State) :
    s.takeBytes n r i u data = { s with
      tags := s.tags.set n (.waiting { r with received := r.received + data.length } i u)
      answers := s.answers ++ if r.detached then [] else [(r.requester, .beat r.label r.received data)] } := by
  unfold State.takeBytes
  cases r.detached <;> simp [State.setTag, State.answer]

/-- A part that brings the bytes received to the length gives its beat and retires the read (R101). -/
theorem State.partOnWaiting_completes {r : ReadInfo} {data : List Byte} (h0 : 1 ≤ data.length)
    (hlen : r.received + data.length = r.length) (n : TagNo) (i u : Nat) (s : State) :
    s.partOnWaiting n r i u (.success data) = (s.takeBytes n r i u data).retire n r .ok .free := by
  have hfits : ¬ (data.length = 0 ∨ r.length - r.received < data.length) := by omega
  simp only [State.partOnWaiting, hfits, hlen, if_false, if_true]

/-- A failing part retires the read with HOSTERR, without a beat (R102, R173). -/
theorem State.partOnWaiting_fails {r : ReadInfo} {x : Completion} (hx : failing r x) (n : TagNo) (i u : Nat) (s : State) :
    s.partOnWaiting n r i u (partOf x) = s.retire n r .hosterr .free := by
  cases x with
  | success data =>
    by_cases hbig : 512 < data.length
    · have hpart : partOf (.success data) = .error := if_pos hbig
      rw [hpart]
      rfl
    · have hbytes : data.length = 0 ∨ r.length < r.received + data.length ∨ 512 < data.length := hx
      have hunfit : data.length = 0 ∨ r.length - r.received < data.length := by omega
      rw [partOf_success (Nat.not_lt.mp hbig)]
      simp only [State.partOnWaiting, hunfit, if_true]
  | unsupported => rfl
  | otherError => rfl

/-- Settles O18: the retirement overwrites the entry that the beat leaves, and its end follows the beat. -/
theorem lastPartRetiresRead : Obligations.LastPartRetiresRead := by
  intro s n r i u data hup ht h0 hmax hlen
  refine ⟨_, exec_completionPart_tag hup n _, ?_⟩
  apply moderate_settles
  rw [State.takePart_waiting ht, partOf_success hmax, State.partOnWaiting_completes h0 hlen, State.retire_ok,
    State.takeBytes_eq]
  simp [retiredState, retirementCauses, departureCauses, slotsAfterDeparture]

/-- Settles O19: every failing part is a retirement with HOSTERR and nothing else. -/
theorem failingPartRetiresWithHosterr : Obligations.FailingPartRetiresWithHosterr := by
  intro s n r i u x g base hup ht hx hg hb
  refine ⟨_, exec_completionPart_tag hup n x, ?_⟩
  apply moderate_settles
  rw [State.takePart_waiting ht, State.partOnWaiting_fails hx, State.retire_fault (by decide) hg hb]

/-! ### PARKED tags and stray parts -/

/-- The end of the park period frees a PARKED tag with no time left (R107). -/
theorem exec_parkPeriodEnd_due {s : State} {n : TagNo} {i : Nat} (h : s.tags[n] = .parked i 0) :
    exec (.parkPeriodEnd n) s = .next (s.setTag n .free) := by
  have hexec : exec (.parkPeriodEnd n) s = execParkPeriodEnd n s := rfl
  simp only [hexec, execParkPeriodEnd, h]

/-- Any part for a PARKED tag frees it and changes nothing else (R107). -/
theorem exec_completionPart_parked {s : State} (hup : s.link.up = true) {n : TagNo} {i u : Nat}
    (h : s.tags[n] = .parked i u) (x : Completion) :
    exec (.completionPart n.val x) s = .next (s.setTag n .free) := by
  have hquiet : moderate s (s.setTag n .free) = s.setTag n .free := moderate_same rfl rfl rfl
  rw [exec_completionPart_tag hup, State.takePart_parked h, hquiet]

/-- A teardown leaves every tag FREE (R111). -/
theorem State.teardown_tag (s : State) (n : TagNo) : s.teardown.tags[n] = .free := by
  simp [State.teardown]

/-- The link's leaving UP takes every tag with it (R111, R165). -/
theorem State.leaveUp_tag (s : State) (n : TagNo) : s.leaveUp.tags[n] = .free :=
  s.teardown_tag n

/-- The causes of a teardown, taken with the link UP, leave every tag FREE (R111, R165, R166). -/
theorem exec_teardownCause_tag {s : State} (hup : s.link.up = true) {c : Instr}
    (hc : c = .linkLost ∨ c = .hotReset ∨ c = .functionReset) (n : TagNo) :
    ∃ t, exec c s = .next t ∧ t.tags[n] = .free := by
  obtain rfl | rfl | rfl := hc
  · have hexec : exec .linkLost s = .next (if s.link.up then s.leaveUp else s) := rfl
    exact ⟨_, hexec.trans (by rw [if_pos hup]), s.leaveUp_tag n⟩
  · have hexec : exec .hotReset s = .next (if s.link.up then s.leaveUp else s) := rfl
    exact ⟨_, hexec.trans (by rw [if_pos hup]), s.leaveUp_tag n⟩
  · have hexec : exec .functionReset s = .next (if s.link.up then s.teardown else s) := rfl
    exact ⟨_, hexec.trans (by rw [if_pos hup]), s.teardown_tag n⟩

/-- A part for a FREE tag, or for a tag above 31, only sets STRAY_COMPLETION (R109). -/
theorem exec_completionPart_stray {s : State} (hup : s.link.up = true) {n : Nat} (h : ∀ hn : n < 32, s.tags[n] = .free)
    (x : Completion) : exec (.completionPart n x) s = .next (moderate s (s.setCauses causeStray)) := by
  by_cases hn : n < 32
  · rw [exec_completionPart_tag hup ⟨n, hn⟩, State.takePart_free (n := ⟨n, hn⟩) (h hn)]
  · exact exec_completionPart_above hup hn x

/-- Settles O20: the three ways out of PARKED, and a stray part as one cause set. -/
theorem parkedAndStrayParts : Obligations.ParkedAndStrayParts := by
  refine ⟨fun s n i u ht => ⟨?_, fun hup => ⟨exec_completionPart_parked hup ht, fun c hc => exec_teardownCause_tag hup hc n⟩⟩,
    fun s n x hup hfree => ⟨_, exec_completionPart_stray hup hfree x, moderate_settles rfl⟩⟩
  rintro rfl
  exact exec_parkPeriodEnd_due ht

end Sys2Proof.Machine
end

section
/-! PROOF. The write queue: the head entry leaves exactly when the link is UP and holds the credit of R168 for it (R118). -/

namespace Sys2Proof.Machine

open Sys2Proof.Safety

/-- With its credit held the head entry is sent, and then its count falls and it leaves every snapshot (R118, R171). -/
theorem exec_writeLeaving_sends {s : State} {e : QueueEntry} {rest : List QueueEntry} (hq : s.queue = e :: rest)
    (hup : s.link.up = true) (hc : Config.writeCredit e.length ≤ s.link.postedCredit) :
    exec .writeLeaving s = .next (moderate s ((({ s with
      queue := rest
      link := { s.link with postedCredit := s.link.postedCredit - Config.writeCredit e.length }
      sent := s.sent ++ [.memWrite e.hostAddr e.length e.data] } : State).fall e.index e.gen).entryLeaves)) := by
  have hexec : exec .writeLeaving s = execWriteLeaving s := rfl
  simp only [hexec, execWriteLeaving, hq, hup, hc, and_self, if_true]
  rfl

/-- Without its credit the head entry stays, and nothing changes (R118, R121). -/
theorem exec_writeLeaving_waits {s : State} {e : QueueEntry} {rest : List QueueEntry} (hq : s.queue = e :: rest)
    (hc : s.link.postedCredit < Config.writeCredit e.length) : exec .writeLeaving s = .next s := by
  have hexec : exec .writeLeaving s = execWriteLeaving s := rfl
  simp only [hexec, execWriteLeaving, hq, Nat.not_le.mpr hc, and_false, if_false]

/-- Settles O16: what is sent touches neither grants, slots nor causes, so the departure is that of the state before. -/
theorem headWriteLeavesOnCredit : Obligations.HeadWriteLeavesOnCredit := by
  intro s e rest hq hup
  refine ⟨fun hc => ⟨_, exec_writeLeaving_sends hq hup hc, ?_⟩, exec_writeLeaving_waits hq⟩
  apply moderate_settles
  rw [State.fall_entryLeaves_eq]
  rfl

end Sys2Proof.Machine
end

section
/-! PROOF. FENCE: the snapshot that the model takes holds the WAITING tags and the write-queue entries of the requester set, and
what it counts of them is their number (R124, R125). -/

namespace Sys2Proof.Machine

open Sys2Proof.Safety

/-! ### Sets held as bits -/

theorem getLsbD_maskOf (p : Nat → Bool) (n i : Nat) : (maskOf n p).getLsbD i = (decide (i < n) && p i) := by
  induction n with
  | zero => simp [maskOf]
  | succ n ih =>
    rw [maskOf, BitVec.getLsbD_cons, ih]
    obtain hlt | rfl | hgt := Nat.lt_trichotomy i n
    · simp [hlt, Nat.ne_of_lt hlt, Nat.lt_succ_of_lt hlt]
    · simp
    · simp [Nat.ne_of_gt hgt, Nat.not_lt_of_gt hgt, Nat.not_lt.mpr (Nat.succ_le_of_lt hgt)]

theorem members_maskOf (n : Nat) (p : Nat → Bool) : members (maskOf n p) = (List.range n).countP p := by
  refine List.countP_congr fun i hi => ?_
  rw [getLsbD_maskOf, decide_eq_true (List.mem_range.mp hi), Bool.true_and]

/-- A set without members has no bit set. -/
theorem members_eq_zero_iff {w : Nat} (b : BitVec w) : members b = 0 ↔ b = 0#w := by
  refine ⟨fun h => BitVec.eq_of_getLsbD_eq fun i hi => ?_, fun h => h ▸ members_zero w⟩
  rw [BitVec.getLsbD_zero]
  exact Bool.eq_false_iff.mpr (List.countP_eq_zero.mp h i (List.mem_range.mpr hi))

/-- The places below `n` whose element satisfies `q` are as many as such elements among the first `n`. -/
theorem countP_range_getElem? {α : Type} (l : List α) (q : α → Bool) (n : Nat) :
    (List.range n).countP (fun i => l[i]?.any q) = (l.take n).countP q := by
  induction n with
  | zero => rfl
  | succ n ih =>
    rw [List.range_succ, List.take_add_one, List.countP_append, List.countP_append, ih]
    cases h : l[n]? <;> simp [h]

/-! ### The snapshot of a requester set (R125) -/

/-- A tag that a FENCE waits for: WAITING, with a read of a requester of the set, detached or not (R125). -/
def TagEntry.waitsFor (set : Set8) : TagEntry → Bool
  | .waiting r _ _ => set.getLsbD r.requester.val
  | _ => false

theorem TagEntry.waitsFor_iff {set : Set8} {e : TagEntry} :
    e.waitsFor set = true ↔ ∃ r i u, e = .waiting r i u ∧ set.getLsbD r.requester.val = true := by
  cases e <;> simp [TagEntry.waitsFor]

/-- A write-queue entry that a FENCE waits for: its requester is of the set (R125). -/
def QueueEntry.waitsFor (set : Set8) (e : QueueEntry) : Bool :=
  set.getLsbD e.requester.val

theorem State.snapshotOf_tags (s : State) (set : Set8) :
    (s.snapshotOf set).tags = maskOf 32 fun t => s.tags.toList[t]?.any (TagEntry.waitsFor set) := by
  unfold State.snapshotOf
  dsimp only
  refine congrArg (maskOf 32) (funext fun t => ?_)
  rw [Vector.getElem?_toList]
  obtain _ | (_ | _ | _) := s.tags[t]? <;> rfl

theorem State.snapshotOf_entries (s : State) (set : Set8) :
    (s.snapshotOf set).entries = maskOf 16 fun n => s.queue[n]?.any (QueueEntry.waitsFor set) := by
  unfold State.snapshotOf
  dsimp only
  refine congrArg (maskOf 16) (funext fun n => ?_)
  cases s.queue[n]? <;> rfl

theorem tagsIn_eq (s : State) (set : Set8) : tagsIn s set = s.tags.toList.countP (TagEntry.waitsFor set) :=
  rfl

theorem members_snapshotOf_tags (s : State) (set : Set8) : members (s.snapshotOf set).tags = tagsIn s set := by
  rw [State.snapshotOf_tags, members_maskOf, countP_range_getElem?, List.take_of_length_le (by simp), tagsIn_eq]

theorem members_snapshotOf_entries (s : State) (set : Set8) : members (s.snapshotOf set).entries = entriesIn s set := by
  rw [State.snapshotOf_entries, members_maskOf, countP_range_getElem?]
  rfl

/-- The snapshot of the model is the one that R125 describes. -/
theorem State.snapshotOf_taken (s : State) (set : Set8) : taken s set (s.snapshotOf set) := by
  constructor
  · intro n
    have htag : s.tags.toList[n.val]? = some s.tags[n] := by simp
    rw [State.snapshotOf_tags, getLsbD_maskOf, htag, Option.any_some, ← TagEntry.waitsFor_iff]
    simp
  · intro m
    rw [State.snapshotOf_entries, getLsbD_maskOf]
    simp [Option.any_eq_true, QueueEntry.waitsFor]

/-- The snapshot is empty when both numbers that the FENCE reports are 0 (R124). -/
theorem State.snapshotOf_isEmpty_iff (s : State) (set : Set8) :
    (s.snapshotOf set).isEmpty = true ↔ tagsIn s set = 0 ∧ entriesIn s set = 0 := by
  rw [← members_snapshotOf_tags, ← members_snapshotOf_entries, members_eq_zero_iff, members_eq_zero_iff]
  simp [Snapshot.isEmpty]

/-! ### The report (R180) -/

/-- A FENCE waits for at most the 32 tags. -/
theorem tagsIn_le (s : State) (set : Set8) : tagsIn s set ≤ 32 := by
  rw [tagsIn_eq]
  exact List.countP_le_length.trans (by simp)

/-- A FENCE waits for at most the 16 places of the write queue. -/
theorem entriesIn_le (s : State) (set : Set8) : entriesIn s set ≤ 16 :=
  List.countP_le_length.trans (List.length_take_le _ _)

theorem writeResult_fence (set : Set8) {tags entries : Nat} (ht : tags ≤ 32) (he : entries ≤ 16) (area : Vector Word 32) :
    writeResult (resultFence set tags entries) area
      = ((area.set 0 (set.setWidth 32)).set 1 (BitVec.ofNat 32 tags)).set 2 (BitVec.ofNat 32 entries) := by
  have hset : put 0 8 set.toNat = set.setWidth 32 := by simp [put]
  have htags : put 0 6 tags = BitVec.ofNat 32 tags := by
    rw [put_zero (by norm_num), Nat.mod_eq_of_lt (by omega)]
  have hentries : put 0 5 entries = BitVec.ofNat 32 entries := by
    rw [put_zero (by norm_num), Nat.mod_eq_of_lt (by omega)]
  unfold resultFence
  iterate 3 rw [writeResult_cons _ _ _ (by decide)]
  rw [writeResult_nil, hset, htags, hentries]

/-! ### FENCE (R124) -/

theorem cmdFence_badarg {k : SlotNo} {s : State} (h : s.slots[k].requesters = 0#8) :
    cmdFence k s = s.endSlot k .badarg :=
  if_pos h

theorem cmdFence_ends {k : SlotNo} {s : State} {set : Set8} (hset : s.slots[k].requesters = set) (h0 : set ≠ 0#8)
    (ht : tagsIn s set = 0) (he : entriesIn s set = 0) : cmdFence k s = s.finish k (resultFence set 0 0) := by
  unfold cmdFence
  dsimp only
  rw [hset, if_neg h0, if_pos ((s.snapshotOf_isEmpty_iff set).mpr ⟨ht, he⟩), members_snapshotOf_tags,
    members_snapshotOf_entries, ht, he]

theorem cmdFence_waits {k : SlotNo} {s : State} {set : Set8} (hset : s.slots[k].requesters = set) (h0 : set ≠ 0#8)
    (h : tagsIn s set ≠ 0 ∨ entriesIn s set ≠ 0) :
    cmdFence k s = { s with slots := s.slots.set k { s.slots[k] with
      state := .waiting
      snapshot := some (s.snapshotOf set)
      result := writeResult (resultFence set (tagsIn s set) (entriesIn s set)) s.slots[k].result } } := by
  have hmembers : ¬ (s.snapshotOf set).isEmpty = true := by
    rw [State.snapshotOf_isEmpty_iff]
    exact not_and_or.mpr h
  unfold cmdFence
  dsimp only
  rw [hset, if_neg h0, if_neg hmembers, members_snapshotOf_tags, members_snapshotOf_entries, State.wait_eq]
  simp [State.setSlot]

/-- FENCE is executed at the front of the submission order (R141). -/
theorem exec_fence_atFront {s : State} {k : SlotNo} {rest : List SlotNo} (h : atFront s k rest 0x0007#16) :
    exec .fence s = .next (moderate s (cmdFence k { s with order := rest })) := by
  have he : execFence s = answerNext s (cmdFence k { s with order := rest }) := engine_eq h rfl
  exact he

/-- Settles O35: the numbers reported are those of the members of the snapshot, so they decide between the end and the wait;
the wait sets no cause and is not moderated. -/
theorem fenceWaitsForSnapshot : Obligations.FenceWaitsForSnapshot := by
  intro s k rest set hf hset
  have hset' : ({ s with order := rest } : State).slots[k].requesters = set := hset
  refine ⟨fun h0 => ⟨_, exec_fence_atFront hf, ?_⟩, fun h0 ht he => ⟨_, exec_fence_atFront hf, ?_⟩,
    fun h0 h => ⟨s.snapshotOf set, s.snapshotOf_taken set, ?_⟩⟩
  · rw [cmdFence_badarg (hset'.trans h0)]
    exact endSlot_endsWith
  · rw [cmdFence_ends hset' h0 ht he, ← writeResult_fence set (Nat.zero_le 32) (Nat.zero_le 16)]
    exact finish_settles
  · rw [exec_fence_atFront hf, cmdFence_waits hset' h0 h, ← writeResult_fence set (tagsIn_le s set) (entriesIn_le s set)]
    exact congrArg Host.Outcome.next (moderate_same rfl rfl rfl)

end Sys2Proof.Machine
end

section
/-! PROOF. The words of the notice unit (R154, R155): a write of one is a host access that the link passes on while it is UP; a
cause that leaves status or enable joins no pending set, so it is not moderated, and one that joins enable is. -/

namespace Sys2Proof.Machine

open Sys2Proof.Safety

/-! ### Host accesses while the link is UP (R167) -/

theorem hostAccess_up {s : State} (hup : s.link.up = true) (f : State → State) :
    hostAccess f s = .next (moderate s (f s)) :=
  if_pos hup

/-- A host access that makes no change changes nothing, whatever the link. -/
theorem hostAccess_idle {f : State → State} {s : State} (h : f s = s) : hostAccess f s = .next s := by
  unfold hostAccess answerNext
  rw [h, moderate_same rfl rfl rfl, ite_self]

/-- A write of a read-only word or at an undefined offset has no effect (R167, R176). -/
theorem exec_hostWindowWrite_idle {o : BitVec 14} (h : readOnlyOffset o ∨ undefinedOffset o) (w : Nat) (e : BitVec 4) (v : Word)
    (s : State) : exec (.hostWindowWrite o w e v) s = .next s :=
  hostAccess_idle (f := fun s => if writeTaken o w e then s.writeWord o v else s)
    (by rw [State.writeWord_idle h, ite_self])

theorem State.hostRead_up {s : State} (hup : s.link.up = true) {o : BitVec 14} (h4 : o.toNat % 4 = 0) :
    s.hostRead o 4 0xF#4 = some (s.readWord o) := by
  simp [State.hostRead, writeTaken, hup, h4]

theorem State.readWord_status (s : State) : s.readWord 0x0100#14 = s.notice.status.setWidth 32 := rfl

theorem State.readWord_acknowledge (s : State) : s.readWord 0x010C#14 = 0#32 := rfl

/-- The three words that write enable all read it (R155). -/
theorem State.readWord_enable (s : State) {o : BitVec 14} (h : o = 0x0104#14 ∨ o = 0x0110#14 ∨ o = 0x0114#14) :
    s.readWord o = s.notice.enable.setWidth 32 := by
  obtain rfl | rfl | rfl := h <;> rfl

/-! ### Causes that leave -/

/-- What is left of a set holds nothing that the set did not. -/
theorem removed_and_not_self {w : Nat} (x m : BitVec w) : (x &&& ~~~ m) &&& ~~~ x = 0#w := by
  rw [BitVec.and_comm x, BitVec.and_assoc, BitVec.and_not_self]
  exact BitVec.and_zero

/-- Causes that leave status make no event (R154, R156). -/
theorem moderate_writeAcknowledge (s : State) (v : Word) : moderate s (s.writeAcknowledge v) = s.writeAcknowledge v := by
  refine moderate_quiet ?_ rfl
  change (s.notice.status &&& ~~~ (causesOf v)) &&& s.notice.enable &&& ~~~ (s.notice.status &&& s.notice.enable) = 0#15
  rw [BitVec.and_assoc s.notice.status, BitVec.and_comm (~~~ _), ← BitVec.and_assoc]
  exact removed_and_not_self _ _

/-- Causes that leave enable make no event (R155, R156). -/
theorem moderate_setEnable_removed (s : State) (c : CauseSet) :
    moderate s (s.setEnable (s.notice.enable &&& ~~~ c)) = s.setEnable (s.notice.enable &&& ~~~ c) := by
  refine moderate_quiet ?_ rfl
  change s.notice.status &&& (s.notice.enable &&& ~~~ c) &&& ~~~ (s.notice.status &&& s.notice.enable) = 0#15
  rw [← BitVec.and_assoc]
  exact removed_and_not_self _ _

/-! ### The acknowledge word (R154) -/

/-- Settles O46: the causes acknowledged leave the pending set, so the write is not moderated; the status word takes no
write. -/
theorem acknowledgeRemovesCauses : Obligations.AcknowledgeRemovesCauses := by
  intro s v hup
  have hwrite : exec (.acknowledge v) s = .next (moderate s (s.writeAcknowledge v)) := hostAccess_up hup _
  have hstatus : readOnlyOffset 0x0100#14 := .inr (.inl (by decide))
  refine ⟨?_, exec_hostWindowWrite_idle (.inl hstatus) 4 0xF#4 v s, ?_, ?_⟩
  · rw [hwrite, moderate_writeAcknowledge]
    rfl
  · rw [State.hostRead_up hup rfl, State.readWord_status]
  · rw [State.hostRead_up hup rfl, State.readWord_acknowledge]

/-! ### The enable words (R155) -/

/-- The events of a write of enable are the set causes that join it (R155, R157). -/
theorem moderate_setEnable_moderated (s : State) (e : CauseSet) :
    Moderated s (moderate s (s.setEnable e))
      (members ((s.notice.status &&& e) &&& ~~~ (s.notice.status &&& s.notice.enable))) false s.link.outbound := by
  have hm := moderate_moderated (s := s) (y := s.setEnable e) rfl rfl rfl
  rw [eventsBetween_eq, show decide (s.timing.threshold ≠ (s.setEnable e).timing.threshold) = false by simp] at hm
  exact hm

/-- Each of the three words makes enable the set that the rule names (R155). -/
theorem exec_enableWord {s : State} {v : Word} {c : Instr} {e : CauseSet} (hup : s.link.up = true)
    (h : (c = .enable v ∧ e = v.extractLsb' 0 15)
      ∨ (c = .setEnable v ∧ e = s.notice.enable ||| v.extractLsb' 0 15)
      ∨ (c = .clearEnable v ∧ e = s.notice.enable &&& ~~~ (v.extractLsb' 0 15))) :
    exec c s = .next (moderate s (s.setEnable e)) := by
  obtain ⟨rfl, rfl⟩ | ⟨rfl, rfl⟩ | ⟨rfl, rfl⟩ := h
  · exact hostAccess_up hup (State.setEnable (causesOf v))
  · exact hostAccess_up hup fun s => s.setEnable (s.notice.enable ||| causesOf v)
  · exact hostAccess_up hup fun s => s.setEnable (s.notice.enable &&& ~~~ (causesOf v))

/-- Settles O47: every write of enable is one change of enable, moderated; the CLEAR_ENABLE word lets causes leave only, and that
change is not moderated. -/
theorem enableWords : Obligations.EnableWords := by
  intro s v c e hup hc
  refine ⟨⟨_, exec_enableWord hup hc, moderate_frame s (s.setEnable e), moderate_enable s _, moderate_status s _,
    moderate_masterEnable s _, moderate_setEnable_moderated s e, ?_⟩, fun o ho => ?_⟩
  · rintro rfl
    obtain ⟨⟨⟩, -⟩ | ⟨⟨⟩, -⟩ | ⟨-, rfl⟩ := hc
    rw [moderate_setEnable_removed]
    exact ⟨rfl, rfl, rfl⟩
  · have h4 : o.toNat % 4 = 0 := by obtain rfl | rfl | rfl := ho <;> rfl
    rw [State.hostRead_up hup h4, State.readWord_enable s ho]

end Sys2Proof.Machine
end

section
/-! PROOF. What a step can do, said once: the changes that commands make, each as one record update, and that every command makes
one of them, moderated or as it is. The invariants of the part are proved change by change. -/

namespace Sys2Proof.Machine

open Sys2Proof.Safety

/-- A lease after a command that may replace it: kept, or one that runs from its full period, which is the old one or is not 0
(R24, R39, R60). -/
def leaseKeptOrStarted (old new : Lease) : Prop :=
  new = old ∨ new = .untimed
    ∨ ∃ kind p, (p ≠ 0#16 ∨ ∃ kind' r, old = .timed kind' p r) ∧ new = .timed kind p (p.toNat * 100)

/-- A grant after a MODIFY or a RENEW, as far as its lease and its counters go. -/
structure Altered (g g' : Grant) : Prop where
  lease : leaseKeptOrStarted g.lease g'.lease
  readCount : g'.readCount = g.readCount
  writeCount : g'.writeCount = g.writeCount

/-- A slot whose command has ended with a status, its result area written (R136, R137, R145). -/
def endedWith (sl : Slot) (st : Status) (area : Vector Word 32) : Slot :=
  { endedSlot sl st with result := area }

/-- A slot whose command waits, its result area written (R136, R142). -/
def waitingWith (sl : Slot) (area : Vector Word 32) : Slot :=
  { sl with state := .waiting, result := area }

/-- The changes of one command, before moderation: the state that each makes of `s`. -/
inductive Change (s : State) : State → Prop
  | same : Change s s
  -- Link and reset.
  | powerOn : Change s
      { State.reset with lrst := s.lrst, answers := s.answers, sent := s.sent, pending := s.pending }
  | linkUp (posted read : Nat) (down : s.link.up = false) : Change s
      { s with link := { s.link with up := true, postedCredit := posted, readCredit := read } }
  | linkDown (up : s.link.up = true) : Change s s.leaveUp
  | tornDown (up : s.link.up = true) : Change s s.teardown
  | credited (posted read : Nat) (up : s.link.up = true) : Change s
      { s with link := { s.link with
          postedCredit := s.link.postedCredit + posted, readCredit := s.link.readCredit + read } }
  | readSent {n : TagNo} {a : HostAddr} {len : Nat} {rest : List Request} (up : s.link.up = true)
      (front : s.link.outbound = .memRead n a len :: rest) : Change s
      { s with
        link := { s.link with outbound := rest, readCredit := s.link.readCredit - 1 }
        sent := s.sent ++ [.memRead n a len] }
  | messageSent {rest : List Request} (up : s.link.up = true) (front : s.link.outbound = .message :: rest) : Change s
      { s with
        link := { s.link with outbound := rest, messaging := false, postedCredit := s.link.postedCredit - 2 }
        sent := s.sent ++ [.message] }
  | messageDropped {rest : List Request} (up : s.link.up = true) (front : s.link.outbound = .message :: rest)
      (off : s.link.messaging = false) : Change s
      { s with link := { s.link with outbound := rest } }
  | messageHeld {rest : List Request} (up : s.link.up = true) (front : s.link.outbound = .message :: rest) : Change s
      { s with link := { s.link with messaging := true } }
  -- The card side.
  | lrstAsserted : Change s
      { s with
        lrst := true
        ports := Vector.ofFn fun p : PortNo => cleanPort s.ports[p]
        tags := Vector.ofFn fun n : TagNo => letGo (fun _ => true) s.tags[n] }
  | lrstReleased : Change s { s with lrst := false }
  | headTaken {p : PortNo} {a : Access} {i : GrantIdx} {g : Grant} (released : s.lrst = false)
      (absent : s.ports[p].head = none) (grant : s.grants[i].grant = some g) : Change s
      { s with ports := s.ports.set p { s.ports[p] with head := some a } }
  | headRefused {p : PortNo} {a : Access} {r : Result} {h : Option Handle} {tagLast writeLast : PortNo}
      (turn : (tagLast = s.tagLast ∧ writeLast = s.writeLast) ∨ s.ports[p].head = some a) : Change s
      (({ s with
        tagLast := tagLast
        writeLast := writeLast
        ports := s.ports.set p (portRefusing s.ports[p] a r h)
        answers := s.answers ++ [(p, Safety.refusalAnswer a r)] } : State).setCauses (refusalCause s.ports[p] p r))
  | readIssued {p : PortNo} {n : TagNo} {a : LocalAddr} {len : Nat} {l : Label} {i : GrantIdx} {g : Grant} {host : HostAddr}
      (head : s.ports[p].head = some (.read a len l)) (limit : s.ports[p].outstanding < s.ports[p].readLimit)
      (free : s.tags[n] = .free) (formed : ¬ malformedAccess s.ports[p] (.read a len l))
      (grant : s.grants[i].grant = some g) (opened : g.phase.isClosing = false) : Change s
      { s with
        tagLast := p
        grants := s.grants.set i { s.grants[i] with grant := some (g.counted .read) }
        tags := s.tags.set n (.waiting
          { requester := p, label := l, detached := false, index := i, gen := g.cur.number, hostAddr := host,
            length := len, received := 0 }
          s.timing.timeout (s.timing.timeout * 100))
        ports := s.ports.set p { s.ports[p] with
          head := none, outstanding := s.ports[p].outstanding + 1, labels := s.ports[p].labels ||| 1#8 <<< l.toNat }
        answers := s.answers ++ [(p, .readTaken l)]
        link := { s.link with outbound := s.link.outbound ++ [.memRead n host len] } }
  | writeAccepted {p : PortNo} {a : LocalAddr} {len : Nat} {data : List Byte} {i : GrantIdx} {g : Grant} {e : QueueEntry}
      (head : s.ports[p].head = some (.write a len data))
      (grant : s.grants[i].grant = some g) (opened : g.phase.isClosing = false) : Change s
      { s with
        writeLast := p
        grants := s.grants.set i { s.grants[i] with grant := some (g.counted .write) }
        queue := s.queue ++ [e]
        ports := s.ports.set p { s.ports[p] with head := none }
        answers := s.answers ++ [(p, .writeAnswer .ok)] }
  | entryLeft {e : QueueEntry} {rest : List QueueEntry} (up : s.link.up = true) (front : s.queue = e :: rest) : Change s
      (({ s with
        queue := rest
        link := { s.link with postedCredit := s.link.postedCredit - Config.writeCredit e.length }
        sent := s.sent ++ [.memWrite e.hostAddr e.length e.data]
        grants := s.grants.set e.index (fallOutcome s.grants[e.index] e.gen).1
        slots := slotsAfterDeparture s (fallOutcome s.grants[e.index] e.gen).2 slotAfterEntry } : State).setCauses
          (departureCauses s (fallOutcome s.grants[e.index] e.gen).2 emptiedByEntry))
  -- The read unit.
  | bytesTaken {n : TagNo} {r : ReadInfo} {i u : Nat} {data : List Byte} (tag : s.tags[n] = .waiting r i u)
      (unfinished : r.received + data.length < r.length) : Change s
      { s with
        tags := s.tags.set n (.waiting { r with received := r.received + data.length } i u)
        answers := s.answers ++ if r.detached then [] else [(r.requester, .beat r.label r.received data)] }
  | readRetired {n : TagNo} {r : ReadInfo} {i u : Nat} {res : Result} {next : TagEntry} {port : Port}
      {beats : List (PortNo × Answer)} (c : CauseSet) (tag : s.tags[n] = .waiting r i u)
      (after : next = .free ∨ next = .parked i (i * 100))
      (ended : port = portAfterRead s.ports[r.requester] r ∨ ∃ f, port = faulted (portAfterRead s.ports[r.requester] r) f) :
      Change s ((retiredState s n r res next port beats).setCauses (retirementCauses s n r ||| c))
  | tagFreed {n : TagNo} {i u : Nat} (tag : s.tags[n] = .parked i u) : Change s { s with tags := s.tags.set n .free }
  | strayTaken (up : s.link.up = true) : Change s (s.setCauses causeStray)
  -- Timers.
  | leaseExpired {i : GrantIdx} {g : Grant} {kind : TimedKind} {p : BitVec 16} (grant : s.grants[i].grant = some g)
      (opened : g.phase.isClosing = false) (due : g.lease = .timed kind p 0) : Change s
      (({ s with
        grants := s.grants.set i
          (if noTraffic g then freedRecord s.grants[i]
            else { s.grants[i] with grant := some { g with
              phase := .closing .expired (previous g), lease := .timed kind p 0, waiting := none } })
        slots := slotsReported s.slots g.waiting .overtaken
        expired := s.expired ||| 1#64 <<< i.val } : State).setCauses (reportCause g.waiting ||| 0x1000#15))
  | holdoffStopped : Change s { s with notice := { s.notice with holdoffTimer := none } }
  | messageAttempted (cause : s.link.up = true ∨ s.notice.holdoffTimer = some 0) : Change s
      { s with
        notice := { s.notice with masterEnable := true, eventCount := 0, holdoffTimer := none }
        link := { s.link with outbound :=
          if s.notice.status &&& s.notice.enable = 0#15 ∨ Request.message ∈ s.link.outbound then s.link.outbound
          else s.link.outbound ++ [.message] } }
  | ticked (quiet : ¬ timerDue s) : Change s
      { s with
        grants := Vector.ofFn fun i : GrantIdx => recordRun s.grants[i]
        tags := Vector.ofFn fun n : TagNo => tagRun s.tags[n]
        notice := { s.notice with holdoffTimer := s.notice.holdoffTimer.map fun u => u - 1 } }
  -- The commands of the engine.
  | slotEnded {k : SlotNo} {rest : List SlotNo} {st : Status} {area : Vector Word 32} (front : s.order = k :: rest)
      (coded : st ≠ .none) : Change s
      ((executed s k rest (endedWith s.slots[k] st area)).setCauses (1#15 <<< k.val))
  | grantOpened {k : SlotNo} {rest : List SlotNo} {area : Vector Word 32} {i : GrantIdx} {l : Lease}
      (front : s.order = k :: rest) (free : s.grants[i].grant = none) (lease : suppliedLease s.slots[k] l) : Change s
      (({ executed s k rest (endedWith s.slots[k] .ok area) with
        grants := s.grants.set i { s.grants[i] with grant := some (grantOpened s.slots[k] l) } } : State).setCauses
          (1#15 <<< k.val))
  | grantAltered {k : SlotNo} {rest : List SlotNo} {area : Vector Word 32} {i : GrantIdx} {g g' : Grant}
      (front : s.order = k :: rest) (grant : s.grants[i].grant = some g) (opened : g.phase.isClosing = false)
      (altered : Altered g g') (phase : g'.phase = g.phase) (waits : g'.waiting = g.waiting) : Change s
      (({ executed s k rest (endedWith s.slots[k] .ok area) with
        grants := s.grants.set i { s.grants[i] with grant := some g' } } : State).setCauses (1#15 <<< k.val))
  | grantDrained {k : SlotNo} {rest : List SlotNo} {area : Vector Word 32} {i : GrantIdx} {g g' : Grant}
      {old : PrevGeneration} (front : s.order = k :: rest) (grant : s.grants[i].grant = some g) (opened : g.phase = .opened)
      (altered : Altered g g') (phase : g'.phase = .draining old) (waits : g'.waiting = some k) : Change s
      { executed s k rest (waitingWith s.slots[k] area) with
        grants := s.grants.set i { s.grants[i] with grant := some g' } }
  | closeFreed {k : SlotNo} {rest : List SlotNo} {area : Vector Word 32} {i : GrantIdx} {g : Grant}
      (front : s.order = k :: rest) (grant : s.grants[i].grant = some g) : Change s
      (({ s with
        order := rest
        slots := (slotsReported s.slots g.waiting .overtaken).set k (endedWith s.slots[k] .ok area)
        grants := s.grants.set i (freedRecord s.grants[i]) } : State).setCauses (reportCause g.waiting ||| 1#15 <<< k.val))
  | closeWaits {k : SlotNo} {rest : List SlotNo} {area : Vector Word 32} {i : GrantIdx} {g : Grant}
      (front : s.order = k :: rest) (grant : s.grants[i].grant = some g) (opened : g.phase.isClosing = false) : Change s
      (({ s with
        order := rest
        slots := (slotsReported s.slots g.waiting .overtaken).set k
          (waitingWith (slotsReported s.slots g.waiting .overtaken)[k] area)
        grants := s.grants.set i { s.grants[i] with grant := some { g with
          phase := .closing .command (previous g), lease := leaseStopped g.lease, waiting := some k } } } : State).setCauses
        (reportCause g.waiting))
  | closeAdopted {k : SlotNo} {rest : List SlotNo} {area : Vector Word 32} {i : GrantIdx} {g : Grant}
      (front : s.order = k :: rest) (grant : s.grants[i].grant = some g) (closing : g.phase.isClosing = true)
      (unwaited : g.waiting = none) : Change s
      { executed s k rest (waitingWith s.slots[k] area) with
        grants := s.grants.set i { s.grants[i] with grant := some { g with waiting := some k } } }
  | fenceWaits {k : SlotNo} {rest : List SlotNo} {area : Vector Word 32} {set : Set8} {sn : Snapshot}
      (front : s.order = k :: rest) (members : taken s set sn) (nonempty : sn.isEmpty = false) : Change s
      (executed s k rest { waitingWith s.slots[k] area with snapshot := some sn })
  | requesterSet {k : SlotNo} {rest : List SlotNo} {area : Vector Word 32} {p : PortNo} {policy : FaultPolicy} {limit : Nat}
      (front : s.order = k :: rest) (range : limit = s.ports[p].readLimit
        ∨ (s.ports[p].outstanding ≤ limit ∧ 1 ≤ limit ∧ limit ≤ 8)) : Change s
      (({ executed s k rest (endedWith s.slots[k] .ok area) with
        ports := s.ports.set p { s.ports[p] with policy := policy, readLimit := limit } } : State).setCauses (1#15 <<< k.val))
  | requesterResumed {k : SlotNo} {rest : List SlotNo} {area : Vector Word 32} {p : PortNo}
      (front : s.order = k :: rest) : Change s
      (({ executed s k rest (endedWith s.slots[k] .ok area) with
        ports := s.ports.set p { s.ports[p] with run := .run, fault := none, overflow := 0 } } : State).setCauses
          (1#15 <<< k.val))
  | requesterReset {k : SlotNo} {rest : List SlotNo} {area : Vector Word 32} {p : PortNo}
      (front : s.order = k :: rest) : Change s
      (({ executed s k rest (endedWith s.slots[k] .ok area) with
        ports := s.ports.set p (cleanPort s.ports[p])
        tags := Vector.ofFn fun n : TagNo => letGo (fun q => q == p) s.tags[n] } : State).setCauses (1#15 <<< k.val))
  | timingSet {k : SlotNo} {rest : List SlotNo} {area : Vector Word 32} (front : s.order = k :: rest)
      (good : timingGood s.slots[k]) : Change s
      (({ executed s k rest (endedWith s.slots[k] .ok area) with timing := timingAfter s.slots[k] s.timing } : State).setCauses
        (1#15 <<< k.val))
  -- The host window.
  | submitted {k : SlotNo} {op : BitVec 16} (up : s.link.up = true) (free : ¬ Safety.busy s.slots[k]) : Change s
      { s with
        slots := s.slots.set k { s.slots[k] with
          state := .pending, opcode := op, result := Vector.replicate 32 0#32, status := .none, collided := false }
        order := s.order ++ [k] }
  | cancelled {k : SlotNo} (up : s.link.up = true) (waits : waitsWithFence s.slots[k]) : Change s
      (({ s with slots := s.slots.set k (endedSlot s.slots[k] .cancelled) } : State).setCauses (1#15 <<< k.val))
  | collided {k : SlotNo} (up : s.link.up = true) : Change s
      (({ s with slots := s.slots.set k { s.slots[k] with collided := true } } : State).setCauses 0x2000#15)
  | argumentWritten {k : SlotNo} {args : Vector Word 28} (up : s.link.up = true) : Change s
      { s with slots := s.slots.set k { s.slots[k] with args := args } }
  | acknowledged (c : CauseSet) (up : s.link.up = true) : Change s
      { s with notice := { s.notice with status := s.notice.status &&& ~~~ c } }
  | enableSet (e : CauseSet) (up : s.link.up = true) : Change s { s with notice := { s.notice with enable := e } }
  | masterSet (b : Bool) (up : s.link.up = true) : Change s { s with notice := { s.notice with masterEnable := b } }
  | expiredCleared (e : BitVec 64) (up : s.link.up = true) : Change s { s with expired := e }

end Sys2Proof.Machine
end

section
/-! PROOF. Each command makes one of the changes of `Change`. -/

namespace Sys2Proof.Machine

open Sys2Proof.Safety

/-! ### The commands of the engine -/

section
variable {s : State} {k : SlotNo} {rest : List SlotNo}

theorem change_endSlot {st : Status} (front : s.order = k :: rest) (coded : st ≠ .none) :
    Change s (({ s with order := rest } : State).endSlot k st) :=
  .slotEnded (area := s.slots[k].result) front coded

theorem change_finish (front : s.order = k :: rest) (ws : List ResultWord) :
    Change s (({ s with order := rest } : State).finish k ws) := by
  rw [State.finish_eq]
  exact .slotEnded (area := writeResult ws s.slots[k].result) front (by decide)

theorem change_alter {i : GrantIdx} {g g' : Grant} (front : s.order = k :: rest) (grant : s.grants[i].grant = some g)
    (opened : g.phase.isClosing = false) (altered : Altered g g') (phase : g'.phase = g.phase)
    (waits : g'.waiting = g.waiting) (ws : List ResultWord) :
    Change s ((({ s with order := rest } : State).setGrant i g').finish k ws) := by
  rw [State.finish_eq]
  exact .grantAltered (area := writeResult ws s.slots[k].result) front grant opened altered phase waits

theorem change_cmdOpen (front : s.order = k :: rest) : Change s (cmdOpen k { s with order := rest }) := by
  unfold cmdOpen
  split
  · exact change_endSlot front (by decide)
  · rename_i g hg
    split
    · exact change_endSlot front (by decide)
    · split
      · exact change_endSlot front (by decide)
      · rename_i i hi
        by_cases ha : openRanges s.slots[k] ∧ ∃ l, suppliedLease s.slots[k] l
        · obtain ⟨hr, l, hl⟩ := ha
          have hsome := Slot.openedGrant_some hr hl
          obtain rfl : grantOpened s.slots[k] l = g := Option.some.inj (hsome.symm.trans hg)
          rw [State.finish_eq]
          exact .grantOpened front (State.lowestFree_free hi) hl
        · have hnone := Slot.openedGrant_none ha
          cases hnone.symm.trans hg

theorem leaseKeptOrStarted_of_supplied {sl : Slot} {old l : Lease} (h : suppliedLease sl l) : leaseKeptOrStarted old l := by
  obtain ⟨-, rfl⟩ | ⟨-, hp, rfl⟩ | ⟨-, hp, rfl⟩ := h
  · exact .inr (.inl rfl)
  · exact .inr (.inr ⟨_, _, .inl hp, rfl⟩)
  · exact .inr (.inr ⟨_, _, .inl hp, rfl⟩)

theorem leaseKeptOrStarted_nextLease {sl : Slot} {g : Grant} {l : Lease} (h : sl.nextLease g = some l) :
    leaseKeptOrStarted g.lease l := by
  rw [Slot.nextLease_iff] at h
  split at h
  · exact leaseKeptOrStarted_of_supplied h
  · exact .inl h

theorem change_remap {h : Handle} {g : Grant} (front : s.order = k :: rest) (grant : s.grants[h.index].grant = some g)
    (opened : g.phase = .opened) : Change s (({ s with order := rest } : State).remap k h g) := by
  unfold State.remap
  split
  · rename_i n l _ hl
    have started := leaseKeptOrStarted_nextLease hl
    dsimp only
    split
    · exact change_alter (g' := { g with cur := n, lease := l, tag := s.slots[k].nextTag g }) front grant
        (by rw [opened]; rfl) ⟨started, rfl, rfl⟩ rfl rfl _
    · rw [State.wait_eq]
      exact .grantDrained front grant opened ⟨started, rfl, rfl⟩ rfl rfl
  · exact change_endSlot front (by decide)

theorem change_relabel {h : Handle} {g : Grant} (front : s.order = k :: rest) (grant : s.grants[h.index].grant = some g)
    (opened : g.phase.isClosing = false) : Change s (({ s with order := rest } : State).relabel k h g) := by
  unfold State.relabel
  split
  · exact change_endSlot front (by decide)
  · rename_i l hl
    have started := leaseKeptOrStarted_nextLease hl
    exact change_alter (g' := { g with lease := l, tag := s.slots[k].nextTag g }) front grant opened ⟨started, rfl, rfl⟩ rfl rfl _

theorem change_cmdModify (front : s.order = k :: rest) : Change s (cmdModify k { s with order := rest }) := by
  unfold cmdModify
  dsimp only
  split
  · exact change_endSlot front (by decide)
  rename_i g hb
  have grant := State.byHandle_grant hb
  split
  · exact change_endSlot front (by decide)
  rename_i hclosing
  have opened := Bool.eq_false_iff.mpr hclosing
  split
  · exact change_endSlot front (by decide)
  rename_i hdraining
  split
  · exact change_endSlot front (by decide)
  split
  · exact change_endSlot front (by decide)
  split
  · rename_i hm
    refine change_remap front grant (Phase.eq_opened opened ?_)
    exact Option.not_isSome_iff_eq_none.mp fun hp => hdraining ⟨hp, hm⟩
  · exact change_relabel front grant opened

/-- The grant as a CLOSE leaves it (R45, R54). -/
theorem Grant.closed_eq (g : Grant) : g.closed = { g with
    phase := .closing .command (previous g), lease := leaseStopped g.lease, waiting := none } := by
  unfold Grant.closed
  rw [previous_eq, Lease.stopped_eq]

theorem Grant.closed_idleTraffic (g : Grant) : g.closed.idleTraffic = noTraffic g :=
  noTraffic_eq g

theorem slotsReported_none (slots : Vector Slot 4) (st : Status) : slotsReported slots none st = slots := rfl

theorem reportCause_none : reportCause none = 0#15 := rfl

/-- A CLOSE of a grant without traffic frees it (R46). -/
theorem State.beginClose_freed {h : Handle} {g : Grant} {s : State} (hn : noTraffic g = true) (ws : Vector Word 32)
    (hws : ws = writeResult (resultClose h .command) s.slots[k].result) :
    s.beginClose k h g = ({ s with
      slots := (slotsReported s.slots g.waiting .overtaken).set k (endedWith s.slots[k] .ok ws)
      grants := s.grants.set h.index (freedRecord s.grants[h.index]) } : State).setCauses
        (reportCause g.waiting ||| 1#15 <<< k.val) := by
  have hslot : { endedSlot (slotsReported s.slots g.waiting .overtaken)[k] .ok with
      result := writeResult (resultClose h .command) (slotsReported s.slots g.waiting .overtaken)[k].result }
      = endedWith s.slots[k] .ok ws := by
    subst hws
    unfold slotsReported
    split
    · rename_i j _
      by_cases hj : j.val = k.val
      · have : j = k := Fin.ext hj
        subst this
        simp [endedWith, endedSlot]
      · simp [hj, endedWith, endedSlot]
    · rfl
  unfold State.beginClose
  rw [Grant.closed_idleTraffic, if_pos hn, State.report_eq, State.freeGrant_eq (g := g.closed) (by simp [State.setGrant_eq]),
    State.finish_eq]
  have hnone : g.closed.waiting = none := rfl
  simp only [hnone, slotsReported_none, reportCause_none, State.setGrant_eq, hslot]
  simp [freedRecord, State.setCauses, BitVec.or_assoc]

/-- A CLOSE of a grant with traffic waits for it (R45). -/
theorem State.beginClose_waits {h : Handle} {g : Grant} {s : State} (hn : noTraffic g = false) :
    s.beginClose k h g = ({ s with
      slots := (slotsReported s.slots g.waiting .overtaken).set k
        (waitingWith (slotsReported s.slots g.waiting .overtaken)[k]
          (writeResult (resultClose h .command) (slotsReported s.slots g.waiting .overtaken)[k].result))
      grants := s.grants.set h.index { s.grants[h.index] with grant := some { g with
        phase := .closing .command (previous g), lease := leaseStopped g.lease, waiting := some k } } } : State).setCauses
        (reportCause g.waiting) := by
  unfold State.beginClose
  rw [Grant.closed_idleTraffic, hn]
  simp only [Bool.false_eq_true, if_false]
  rw [State.report_eq, State.wait_eq]
  simp [State.setGrant_eq, Grant.closed_eq, State.setCauses, waitingWith]

theorem change_beginClose {h : Handle} {g : Grant} (front : s.order = k :: rest) (grant : s.grants[h.index].grant = some g)
    (opened : g.phase.isClosing = false) : Change s (({ s with order := rest } : State).beginClose k h g) := by
  cases hn : noTraffic g with
  | true =>
    rw [State.beginClose_freed hn _ rfl]
    exact .closeFreed front grant
  | false =>
    rw [State.beginClose_waits hn]
    exact .closeWaits front grant opened

theorem change_cmdClose (front : s.order = k :: rest) : Change s (cmdClose k { s with order := rest }) := by
  unfold cmdClose
  dsimp only
  split
  · exact change_endSlot front (by decide)
  · rename_i g hb
    have grant := State.byHandle_grant hb
    split
    · rename_i c p hph
      split
      · exact change_endSlot front (by decide)
      · rename_i hw
        rw [State.wait_eq]
        exact .closeAdopted front grant (by rw [hph]; rfl) (Option.not_isSome_iff_eq_none.mp hw)
    · rename_i hph
      refine change_beginClose front grant ?_
      cases h : g.phase with
      | closing c p => exact absurd h (hph c p)
      | _ => rfl

theorem leaseKeptOrStarted_renewed (period : BitVec 16) (l : Lease) : leaseKeptOrStarted l (l.renewed period) := by
  cases l with
  | untimed => exact .inl rfl
  | timed kind old u =>
    rw [Lease.renewed_timed]
    by_cases hp : period = 0#16
    · rw [if_pos hp]
      exact .inr (.inr ⟨kind, old, .inr ⟨kind, u, rfl⟩, rfl⟩)
    · rw [if_neg hp]
      exact .inr (.inr ⟨kind, period, .inl hp, rfl⟩)

theorem change_cmdRenew (front : s.order = k :: rest) : Change s (cmdRenew k { s with order := rest }) := by
  unfold cmdRenew
  dsimp only
  split
  · exact change_endSlot front (by decide)
  · rename_i g hb
    split
    · exact change_endSlot front (by decide)
    · rename_i hc
      have opened : g.phase.isClosing = false := Bool.eq_false_iff.mpr fun h => hc (.inl h)
      have started := leaseKeptOrStarted_renewed s.slots[k].period g.lease
      exact change_alter (g' := { g with lease := g.lease.renewed s.slots[k].period }) front (State.byHandle_grant hb) opened
        ⟨started, rfl, rfl⟩ rfl rfl _

theorem change_cmdQuery (front : s.order = k :: rest) : Change s (cmdQuery k { s with order := rest }) := by
  unfold cmdQuery
  dsimp only
  split
  · exact change_finish front _
  split
  · split
    · exact change_finish front _
    · exact change_finish front _
  · exact change_endSlot front (by decide)

theorem change_cmdLookup (front : s.order = k :: rest) : Change s (cmdLookup k { s with order := rest }) := by
  unfold cmdLookup
  dsimp only
  split
  · exact change_endSlot front (by decide)
  split
  · exact change_finish front _
  · exact change_finish front _

theorem change_cmdFence (front : s.order = k :: rest) : Change s (cmdFence k { s with order := rest }) := by
  unfold cmdFence
  dsimp only
  split
  · exact change_endSlot front (by decide)
  split
  · exact change_finish front _
  · rename_i hne
    rw [State.wait_eq]
    simp only [State.setSlot, Vector.set_set, Fin.getElem_fin, Vector.getElem_set_self]
    exact .fenceWaits front (State.snapshotOf_taken s _) (Bool.eq_false_iff.mpr hne)

theorem change_cmdSetRequester (front : s.order = k :: rest) : Change s (cmdSetRequester k { s with order := rest }) := by
  unfold cmdSetRequester
  dsimp only
  split
  · exact change_endSlot front (by decide)
  rename_i hf
  split
  · exact change_endSlot front (by decide)
  rename_i hlimit
  rw [State.finish_eq]
  refine .requesterSet front ?_
  obtain ⟨-, -, range⟩ := (Slot.requesterFault_iff _).mp (Bool.eq_false_iff.mpr hf)
  split
  · rename_i h1
    obtain ⟨hmin, hmax⟩ := range h1
    exact .inr ⟨Nat.le_of_not_lt fun hlt => hlimit ⟨h1, hlt⟩, hmin, hmax⟩
  · exact .inl rfl

theorem change_cmdQueryRequester (front : s.order = k :: rest) : Change s (cmdQueryRequester k { s with order := rest }) :=
  change_finish front _

theorem change_cmdResume (front : s.order = k :: rest) : Change s (cmdResume k { s with order := rest }) := by
  unfold cmdResume
  dsimp only
  rw [State.finish_eq]
  exact .requesterResumed front

theorem change_cmdResetRequester (front : s.order = k :: rest) : Change s (cmdResetRequester k { s with order := rest }) := by
  unfold cmdResetRequester
  dsimp only
  rw [State.finish_eq, State.cleanRequester_eq]
  exact .requesterReset front

/-- The checks of SET-TIMING, and the parameters that it gives (R147). -/
theorem Slot.nextTiming_some {sl : Slot} (h : timingGood sl) (t : Timing) : sl.nextTiming t = some (timingAfter sl t) := by
  obtain ⟨hp, h0, h1, h2⟩ := h
  unfold Slot.nextTiming
  split
  · rename_i hbad
    simp only [Slot.names_eq, Slot.timeout_eq, Slot.threshold_eq, Slot.holdoff_eq, (presenceFault_iff sl 3).mpr hp,
      Config.maxTimeoutMs, Config.maxSmallCount] at hbad
    obtain h | ⟨h, h'⟩ | ⟨h, h'⟩ | ⟨h, h'⟩ := hbad
    · cases h
    · have := h0 h
      omega
    · have := h1 h
      omega
    · have := h2 h
      omega
  · rfl

theorem Slot.nextTiming_none {sl : Slot} (h : ¬ timingGood sl) (t : Timing) : sl.nextTiming t = none := by
  unfold Slot.nextTiming
  split
  · rfl
  · rename_i hgood
    refine absurd ?_ h
    simp only [Slot.names_eq, Slot.timeout_eq, Slot.threshold_eq, Slot.holdoff_eq, Config.maxTimeoutMs, Config.maxSmallCount,
      not_or, not_and, Bool.not_eq_true, presenceFault_iff] at hgood
    obtain ⟨hp, h0, h1, h2⟩ := hgood
    refine ⟨hp, fun hn => ?_, fun hn => ?_, fun hn => ?_⟩
    · have := h0 hn
      omega
    · have := h1 hn
      omega
    · have := h2 hn
      omega

theorem change_cmdSetTiming (front : s.order = k :: rest) : Change s (cmdSetTiming k { s with order := rest }) := by
  unfold cmdSetTiming
  by_cases hg : timingGood s.slots[k]
  · rw [Slot.nextTiming_some hg]
    dsimp only
    rw [State.finish_eq]
    exact .timingSet front hg
  · rw [Slot.nextTiming_none hg]
    exact change_endSlot front (by decide)

theorem change_cmdBadop (front : s.order = k :: rest) : Change s (cmdBadop k { s with order := rest }) :=
  change_endSlot front (by decide)

end

end Sys2Proof.Machine
end

section
/-! PROOF. The events of the link, the card side, the read unit, the timers and the host window make changes of `Change` too; so
every command does, and every step. -/

namespace Sys2Proof.Machine

open Sys2Proof.Safety

/-! ### The lookup of a head access -/

/-- A lookup that passes found the access well formed, and gives the current generation of a grant that is not closing (R12). -/
theorem State.lookupAccess_pass_open {s : State} {p : PortNo} {a : Access} {i : GrantIdx} {n : GenNo} {host : HostAddr}
    (h : s.lookupAccess p a = .pass i n host) :
    ¬ malformedAccess s.ports[p] a ∧ ∃ g, s.grants[i].grant = some g ∧ n = g.cur.number ∧ g.phase.isClosing = false := by
  unfold State.lookupAccess at h
  split at h
  · cases h
  split at h
  · cases h
  rename_i hm
  refine ⟨fun hm' => hm ((Port.malformed_iff _ _).mpr hm'), ?_⟩
  unfold State.lookupGrant at h
  split at h
  · cases h
  rename_i j g hg
  dsimp only at h
  split at h
  · cases h
  rename_i hc
  split at h
  · cases h
    exact ⟨g, State.grantAt_grant hg, rfl, Bool.eq_false_iff.mpr hc⟩
  · cases h

/-- A lookup does not read the head of the port. -/
theorem State.lookupAccess_setHead (s : State) (p : PortNo) (x : Option Access) (a : Access) :
    (s.setPort p { s.ports[p] with head := x }).lookupAccess p a = s.lookupAccess p a := by
  have hp : (s.setPort p { s.ports[p] with head := x }).ports[p] = { s.ports[p] with head := x } := by simp
  unfold State.lookupAccess
  rw [hp]
  rfl

/-- A port that refuses an access is as if it had not taken it. -/
theorem portRefusing_setHead (q : Port) (x : Option Access) (a : Access) (r : Result) (h : Option Handle) :
    portRefusing { q with head := x } a r h = portRefusing q a r h :=
  rfl

theorem refusalCause_setHead (q : Port) (x : Option Access) (p : PortNo) (r : Result) :
    refusalCause { q with head := x } p r = refusalCause q p r :=
  rfl

/-- A probe that refuses leaves the port as a refusal of its head does (R70). -/
theorem State.probeHead_refused {s : State} {p : PortNo} {a : Access} {r : Result} {h : Option Handle}
    (hl : s.lookupAccess p a = .refuse r h) :
    (s.setPort p { s.ports[p] with head := some a }).probeHead p a = ({ s with
      ports := s.ports.set p (portRefusing s.ports[p] a r h)
      answers := s.answers ++ [(p, Safety.refusalAnswer a r)] } : State).setCauses (refusalCause s.ports[p] p r) := by
  unfold State.probeHead
  rw [State.lookupAccess_setHead, hl]
  dsimp only
  rw [State.refuseHead_eq]
  have hp : (s.setPort p { s.ports[p] with head := some a }).ports[p] = { s.ports[p] with head := some a } := by simp
  simp only [hp, portRefusing_setHead, refusalCause_setHead]
  simp [State.setPort, State.setCauses]

theorem State.probeHead_passed {s : State} {p : PortNo} {a : Access} {i : GrantIdx} {n : GenNo} {host : HostAddr}
    (hl : s.lookupAccess p a = .pass i n host) :
    (s.setPort p { s.ports[p] with head := some a }).probeHead p a
      = { s with ports := s.ports.set p { s.ports[p] with head := some a } } := by
  unfold State.probeHead
  rw [State.lookupAccess_setHead, hl]
  rfl

theorem change_probeHead {s : State} {p : PortNo} {a : Access} (released : s.lrst = false) (absent : s.ports[p].head = none) :
    Change s ((s.setPort p { s.ports[p] with head := some a }).probeHead p a) := by
  cases hl : s.lookupAccess p a with
  | refuse r h =>
    rw [State.probeHead_refused hl]
    exact .headRefused (.inl ⟨rfl, rfl⟩)
  | pass i n host =>
    obtain ⟨-, g, grant, -⟩ := State.lookupAccess_pass_open hl
    rw [State.probeHead_passed hl]
    exact .headTaken released absent grant

/-! ### The two arbiters -/

theorem change_grantRead {s : State} {p : PortNo} {n : TagNo} {a : LocalAddr} {len : Nat} {l : Label}
    (head : s.ports[p].head = some (.read a len l)) (limit : s.ports[p].outstanding < s.ports[p].readLimit)
    (free : s.tags[n] = .free) : Change s (({ s with tagLast := p } : State).grantRead p n a len l) := by
  unfold State.grantRead
  split
  · rw [State.refuseHead_eq]
    exact .headRefused (tagLast := p) (.inr head)
  · rename_i i m host hl
    obtain ⟨formed, g, grant, rfl, opened⟩ := State.lookupAccess_pass_open hl
    have hg : ({ s with tagLast := p } : State).grants[i].grant = some g := grant
    rw [hg]
    exact .readIssued head limit free formed grant opened

theorem change_grantWrite {s : State} {p : PortNo} {a : LocalAddr} {len : Nat} {data : List Byte}
    (head : s.ports[p].head = some (.write a len data)) :
    Change s (({ s with writeLast := p } : State).grantWrite p a len data) := by
  unfold State.grantWrite
  split
  · rw [State.refuseHead_eq]
    exact .headRefused (writeLast := p) (.inr head)
  · rename_i i m host hl
    obtain ⟨-, g, grant, rfl, opened⟩ := State.lookupAccess_pass_open hl
    have hg : ({ s with writeLast := p } : State).grants[i].grant = some g := grant
    rw [hg]
    exact .writeAccepted head grant opened

/-- A command makes one change of the state, which is moderated or needs no moderation (R157). -/
def Makes (s t : State) : Prop :=
  ∃ x, Change s x ∧ (t = x ∨ t = moderate s x)

theorem makes_change {s x : State} (h : Change s x) : Makes s x := ⟨x, h, .inl rfl⟩

theorem makes_moderate {s x : State} (h : Change s x) : Makes s (moderate s x) := ⟨x, h, .inr rfl⟩

theorem makes_same (s : State) : Makes s s := makes_change .same

theorem makes_next {s x t : State} (h : (.next x : Host.Outcome State Fault Refusal) = .next t) (hx : Change s x) :
    Makes s t := by
  cases h
  exact makes_change hx

theorem makes_answerNext {s x t : State} (h : answerNext s x = .next t) (hx : Change s x) : Makes s t := by
  rw [answerNext_next h]
  exact makes_moderate hx

theorem change_ite {s x y : State} {c : Prop} [Decidable c] (hx : c → Change s x) (hy : ¬ c → Change s y) :
    Change s (if c then x else y) := by
  split
  · exact hx ‹_›
  · exact hy ‹_›

/-- The conditions of R94 that a grant of the allocator relies on. -/
theorem State.outstanding_lt_of_eligible {s : State} {p : PortNo} (h : s.readEligible p = true) :
    s.ports[p].outstanding < s.ports[p].readLimit := by
  rw [State.readEligible_eq] at h
  unfold mayRead at h
  simp only [Bool.and_eq_true, decide_eq_true_eq] at h
  exact h.1.1.2

theorem makes_tagGrant (s : State) : Makes s s.tagGrant := by
  unfold State.tagGrant
  split
  · exact makes_same s
  · rename_i p hp
    have he : s.readEligible p = true := List.find?_some hp
    split
    · rename_i hh hn
      exact makes_moderate (change_grantRead hh (State.outstanding_lt_of_eligible he) (State.lowestFreeTag_free hn))
    · exact makes_same s

theorem makes_writeGrant {s t : State} (h : execWriteGrant s = .next t) : Makes s t := by
  unfold execWriteGrant at h
  split at h
  · exact makes_next h .same
  · split at h
    · rename_i hh
      exact makes_answerNext h (change_grantWrite hh)
    · exact makes_next h .same

theorem makes_presentAccess {p : PortNo} {a : Presented} {s t : State} (h : execPresentAccess p a s = .next t) : Makes s t := by
  unfold execPresentAccess at h
  split at h
  · exact makes_next h .same
  · rename_i hc
    simp only [not_or, Bool.not_eq_true, Option.isSome_eq_false_iff, Option.isNone_iff_eq_none] at hc
    exact makes_answerNext h (change_probeHead hc.1 hc.2)

theorem makes_writeLeaving {s t : State} (h : execWriteLeaving s = .next t) : Makes s t := by
  unfold execWriteLeaving at h
  split at h
  · exact makes_next h .same
  · rename_i e rest front
    split at h
    · rename_i hc
      refine makes_answerNext h ?_
      rw [State.fall_entryLeaves_eq]
      exact .entryLeft hc.1 front
    · exact makes_next h .same

/-! ### The read unit -/

/-- A retirement with HOSTERR or TIMEOUT, whatever the grant of the read holds (R103). -/
theorem State.retire_failed {res : Result} (hres : res ≠ .ok) (s : State) (n : TagNo) (r : ReadInfo) (next : TagEntry) :
    s.retire n r res next
      = (retiredState s n r res next (faulted (portAfterRead s.ports[r.requester] r) (s.readRecord r res)) []).setCauses
          (retirementCauses s n r ||| if r.detached then 0#15 else faultCause s.ports[r.requester] r.requester) := by
  unfold State.retire
  rw [State.withdraw_eq, State.fall_tagLeaves_eq, State.endRead_fault hres]
  simp only [State.setTag, retiredState, retirementCauses, departureCauses, slotsAfterDeparture, State.setCauses]
  apply State.eq_of_fields <;> try rfl
  · simp only [BitVec.or_assoc]
    rw [BitVec.or_comm (if r.detached then _ else _)]
  · simp

/-- The retirement with OK that follows the last beat (R101). -/
theorem State.takeBytes_retire (s : State) (n : TagNo) (r : ReadInfo) (i u : Nat) (data : List Byte) :
    (s.takeBytes n r i u data).retire n r .ok .free
      = (retiredState s n r .ok .free (portAfterRead s.ports[r.requester] r)
          (if r.detached then [] else [(r.requester, .beat r.label r.received data)])).setCauses
          (retirementCauses s n r ||| 0#15) := by
  rw [State.retire_ok, State.takeBytes_eq]
  simp [retiredState, retirementCauses, departureCauses, slotsAfterDeparture, State.setCauses]

theorem change_retire_failed {s : State} {n : TagNo} {r : ReadInfo} {i u : Nat} {res : Result} {next : TagEntry}
    (tag : s.tags[n] = .waiting r i u) (hres : res ≠ .ok) (after : next = .free ∨ next = .parked i (i * 100)) :
    Change s (s.retire n r res next) := by
  rw [State.retire_failed hres]
  exact .readRetired _ tag after (.inr ⟨_, rfl⟩)

theorem change_takePart (s : State) (up : s.link.up = true) (n : TagNo) (part : Part) : Change s (s.takePart n part) := by
  unfold State.takePart
  split
  · rename_i r i u tag
    have failed := change_retire_failed (res := .hosterr) tag (by decide) (.inl rfl)
    unfold State.partOnWaiting
    split
    · exact failed
    · rename_i data
      refine change_ite (fun _ => failed) fun hfits => change_ite (fun _ => ?_) fun hopen => ?_
      · rw [State.takeBytes_retire]
        exact .readRetired _ tag (.inl rfl) (.inl rfl)
      · rw [State.takeBytes_eq]
        exact .bytesTaken tag (by omega)
  · rename_i tag
    exact .tagFreed tag
  · exact .strayTaken up

theorem makes_completionPart {n : Nat} {c : Completion} {s t : State} (h : execCompletionPart n c s = .next t) :
    Makes s t := by
  unfold execCompletionPart at h
  split at h
  · rename_i up
    refine makes_answerNext h ?_
    split
    · exact change_takePart s up _ _
    · exact .strayTaken up
  · exact makes_next h .same

theorem makes_deadlineExpiry {n : TagNo} {s t : State} (h : execDeadlineExpiry n s = .next t) : Makes s t := by
  unfold execDeadlineExpiry at h
  split at h
  · rename_i tag
    exact makes_answerNext h (change_retire_failed tag (by decide) (.inr rfl))
  · exact makes_next h .same

theorem makes_parkPeriodEnd {n : TagNo} {s t : State} (h : execParkPeriodEnd n s = .next t) : Makes s t := by
  unfold execParkPeriodEnd at h
  split at h
  · rename_i tag
    exact makes_next h (.tagFreed tag)
  · exact makes_next h .same

/-! ### Timers -/

/-- The expiry of a lease, whole (R56). -/
theorem execLeaseExpiry_due {s : State} {i : GrantIdx} {g : Grant} {kind : TimedKind} {p : BitVec 16}
    (grant : s.grants[i].grant = some g) (opened : g.phase.isClosing = false) (due : g.lease = .timed kind p 0) :
    execLeaseExpiry i s = .next (moderate s (({ s with
      grants := s.grants.set i
        (if noTraffic g then freedRecord s.grants[i]
          else { s.grants[i] with grant := some { g with
            phase := .closing .expired (previous g), lease := .timed kind p 0, waiting := none } })
      slots := slotsReported s.slots g.waiting .overtaken
      expired := s.expired ||| 1#64 <<< i.val } : State).setCauses (reportCause g.waiting ||| 0x1000#15))) := by
  have hdue : g.leaseDue = true := g.leaseDue_iff.mpr ⟨opened, kind, p, due⟩
  have hexp : g.expired = { g with
      phase := .closing .expired (previous g), lease := .timed kind p 0, waiting := none } := by
    unfold Grant.expired
    rw [previous_eq, due]
    rfl
  have hidle : g.expired.idleTraffic = noTraffic g := noTraffic_eq g
  unfold execLeaseExpiry
  rw [grant]
  dsimp only
  rw [if_pos hdue, hidle]
  unfold answerNext
  congr 2
  cases hn : noTraffic g with
  | true =>
    rw [if_pos rfl, if_pos rfl, State.freeGrant_eq (g := g.expired) (by simp [State.setGrant_eq]), State.report_eq]
    have hnone : g.expired.waiting = none := rfl
    simp only [hnone, slotsReported_none, reportCause_none, State.setGrant_eq]
    simp [freedRecord, State.setCauses, BitVec.or_assoc, causeGrantExpired, single]
  | false =>
    rw [if_neg Bool.false_ne_true, if_neg Bool.false_ne_true, State.report_eq]
    simp [State.setGrant_eq, State.setCauses, BitVec.or_assoc, causeGrantExpired, single, hexp]

theorem execLeaseExpiry_idle {s : State} {i : GrantIdx} (h : ∀ g, s.grants[i].grant = some g → g.leaseDue = false) :
    execLeaseExpiry i s = .next s := by
  unfold execLeaseExpiry
  split
  · rfl
  · rename_i g hg
    rw [if_neg (Bool.eq_false_iff.mp (h g hg))]

theorem makes_leaseExpiry {i : GrantIdx} {s t : State} (h : execLeaseExpiry i s = .next t) : Makes s t := by
  by_cases hd : ∃ g, s.grants[i].grant = some g ∧ g.leaseDue = true
  · obtain ⟨g, grant, hdue⟩ := hd
    obtain ⟨opened, kind, p, due⟩ := g.leaseDue_iff.mp hdue
    rw [execLeaseExpiry_due grant opened due] at h
    cases h
    exact makes_moderate (.leaseExpired grant opened due)
  · have hidle : ∀ g, s.grants[i].grant = some g → g.leaseDue = false :=
      fun g hg => Bool.eq_false_iff.mpr fun hdue => hd ⟨g, hg, hdue⟩
    rw [execLeaseExpiry_idle hidle] at h
    exact makes_next h .same

/-- A send attempt with master enable on (R158, R172). -/
theorem State.sendAttempt_on {s : State} (h : s.notice.masterEnable = true) :
    s.sendAttempt = { s with
      notice := { s.notice with masterEnable := true, eventCount := 0, holdoffTimer := none }
      link := { s.link with outbound :=
        if s.notice.status &&& s.notice.enable = 0#15 ∨ Request.message ∈ s.link.outbound then s.link.outbound
        else s.link.outbound ++ [.message] } } := by
  unfold State.sendAttempt
  rw [if_pos h, ← h]
  by_cases hp : s.notice.status &&& s.notice.enable = 0#15
  · simp [Notice.pendingSet, hp, State.restartCount]
  · by_cases hmsg : Request.message ∈ s.link.outbound <;>
      simp [Notice.pendingSet, hp, State.restartCount, State.handMessage, Link.hasMessage, hmsg]

theorem State.sendAttempt_off {s : State} (h : s.notice.masterEnable = false) : s.sendAttempt = s := by
  unfold State.sendAttempt
  rw [if_neg (Bool.eq_false_iff.mp h)]

theorem makes_holdoffExpiry {s t : State} (h : execHoldoffExpiry s = .next t) : Makes s t := by
  unfold execHoldoffExpiry at h
  split at h
  · rename_i hz
    refine makes_next h (change_ite (fun _ => ?_) fun _ => .holdoffStopped)
    cases hm : s.notice.masterEnable with
    | true =>
      rw [State.sendAttempt_on (s := { s with notice := { s.notice with holdoffTimer := none } }) hm]
      exact .messageAttempted (.inr hz)
    | false =>
      rw [State.sendAttempt_off (s := { s with notice := { s.notice with holdoffTimer := none } }) hm]
      exact .holdoffStopped
  · exact makes_next h .same

/-! ### The link -/

theorem makes_memoryReadSend {s t : State} (h : execMemoryReadSend s = .next t) : Makes s t := by
  refine makes_next h ?_
  split
  · rename_i front
    exact change_ite (fun hc => .readSent hc.1 front) fun _ => .same
  · exact .same

theorem makes_messageSend {m : Bool} {s t : State} (h : execMessageSend m s = .next t) : Makes s t := by
  refine makes_next h ?_
  split
  · rename_i front
    refine change_ite (fun up => change_ite (fun _ => change_ite (fun _ => .messageSent up front) fun _ =>
      .messageHeld up front) fun hoff => ?_) fun _ => .same
    rw [Bool.or_eq_true, not_or, Bool.not_eq_true] at hoff
    exact .messageDropped up front hoff.1
  · exact .same

/-! ### The host window -/

theorem change_writeSubmit {s : State} (up : s.link.up = true) (k : SlotNo) (v : Word) : Change s (s.writeSubmit k v) := by
  unfold State.writeSubmit
  refine change_ite (fun _ => change_ite (fun hw => ?_) fun _ => .collided up) fun _ =>
    change_ite (fun _ => .collided up) fun hb => ?_
  · exact .cancelled up ⟨hw.1, Option.isSome_iff_ne_none.mp hw.2⟩
  · exact .submitted up fun h => hb ((Slot.busy_iff _).mpr h)

theorem change_writeMasterEnable {s : State} (up : s.link.up = true) (v : Word) : Change s (s.writeMasterEnable v) := by
  unfold State.writeMasterEnable
  refine change_ite (fun hc => ?_) fun _ => .masterSet _ up
  rw [hc.2.1, State.sendAttempt_on rfl]
  exact .messageAttempted (.inl up)

theorem change_writeWord {s : State} (up : s.link.up = true) (o : BitVec 14) (v : Word) : Change s (s.writeWord o v) := by
  unfold State.writeWord
  dsimp only
  split
  · rename_i k _
    refine change_ite (fun _ => change_writeSubmit up k v) fun _ => change_ite (fun _ => ?_) fun _ => .same
    exact change_ite (fun _ => .collided up) fun _ => .argumentWritten up
  · exact change_ite (fun _ => .enableSet _ up) fun _ => change_ite (fun _ => .acknowledged _ up) fun _ =>
      change_ite (fun _ => .enableSet _ up) fun _ => change_ite (fun _ => .enableSet _ up) fun _ =>
      change_ite (fun _ => change_writeMasterEnable up v) fun _ => change_ite (fun _ => .expiredCleared _ up) fun _ =>
      change_ite (fun _ => .expiredCleared _ up) fun _ => .same

theorem makes_hostAccess {f : State → State} {s t : State} (h : hostAccess f s = .next t)
    (hf : s.link.up = true → Change s (f s)) : Makes s t := by
  unfold hostAccess at h
  split at h
  · rename_i up
    exact makes_answerNext h (hf up)
  · exact makes_next h .same

/-! ### Every command, and every step -/

theorem makes_engine {isRow : BitVec 16 → Bool} {cmd : SlotNo → State → State} {s t : State}
    (h : engine isRow cmd s = .next t) (hc : ∀ {k rest}, s.order = k :: rest → Change s (cmd k { s with order := rest })) :
    Makes s t := by
  obtain rfl | ⟨k, rest, front, -, rfl⟩ := engine_next h
  · exact makes_same t
  · exact makes_moderate (hc front)

/-- A SET-REQUESTER makes its change after the grants that come before it (R95). -/
theorem makes_setRequester {s t : State} (h : execSetRequester s = .next t) : ∃ k n, Makes (s.grantsBefore k n) t := by
  unfold execSetRequester at h
  split at h
  · exact ⟨0, 0, makes_engine h change_cmdSetRequester⟩
  · exact ⟨_, 8, makes_engine h change_cmdSetRequester⟩

/-- Every other command makes one change. -/
theorem makes_exec {c : Instr} {s t : State} (hc : c ≠ .setRequester) (h : exec c s = .next t) : Makes s t := by
  cases c with dsimp only [exec] at h
  | setRequester => exact absurd rfl hc
  | powerOn => exact makes_next h .powerOn
  | trainingComplete =>
    exact makes_next h (change_ite (fun _ => .same) fun down => .linkUp _ _ (Bool.eq_false_iff.mpr down))
  | linkLost | hotReset => exact makes_next h (change_ite .linkDown fun _ => .same)
  | functionReset => exact makes_next h (change_ite .tornDown fun _ => .same)
  | creditGrant => exact makes_next h (change_ite (.credited _ _) fun _ => .same)
  | lrstAssertion =>
    unfold execLrstAssertion at h
    rw [State.cleanEvery_eq] at h
    exact makes_next h .lrstAsserted
  | lrstDeassertion => exact makes_next h .lrstReleased
  | presentAccess => exact makes_presentAccess h
  | tagGrant =>
    cases h
    exact makes_tagGrant s
  | writeGrant => exact makes_writeGrant h
  | writeLeaving => exact makes_writeLeaving h
  | memoryReadSend => exact makes_memoryReadSend h
  | completionPart => exact makes_completionPart h
  | deadlineExpiry => exact makes_deadlineExpiry h
  | parkPeriodEnd => exact makes_parkPeriodEnd h
  | leaseExpiry => exact makes_leaseExpiry h
  | holdoffExpiry => exact makes_holdoffExpiry h
  | messageSend => exact makes_messageSend h
  | openGrant => exact makes_engine h change_cmdOpen
  | modify => exact makes_engine h change_cmdModify
  | close => exact makes_engine h change_cmdClose
  | renew => exact makes_engine h change_cmdRenew
  | query => exact makes_engine h change_cmdQuery
  | lookup => exact makes_engine h change_cmdLookup
  | fence => exact makes_engine h change_cmdFence
  | queryRequester => exact makes_engine h change_cmdQueryRequester
  | resume => exact makes_engine h change_cmdResume
  | resetRequester => exact makes_engine h change_cmdResetRequester
  | setTiming => exact makes_engine h change_cmdSetTiming
  | badop => exact makes_engine h change_cmdBadop
  | submission | cancel => exact makes_hostAccess h fun up => change_writeSubmit up _ _
  | hostWindowWrite =>
    exact makes_hostAccess h fun up => change_ite (fun _ => change_writeWord up _ _) fun _ => .same
  | acknowledge => exact makes_hostAccess h (.acknowledged _)
  | enable | setEnable | clearEnable => exact makes_hostAccess h (.enableSet _)
  | masterEnable => exact makes_hostAccess h fun up => change_writeMasterEnable up _
  | expiredSetClear => exact makes_hostAccess h (.expiredCleared _)

/-- Every command makes one change, after the grants that come before it where it is a SET-REQUESTER. -/
theorem exec_makes {c : Instr} {s t : State} (h : exec c s = .next t) : ∃ k n, Makes (s.grantsBefore k n) t := by
  by_cases hc : c = .setRequester
  · subst hc
    exact makes_setRequester h
  · exact ⟨0, 0, makes_exec hc h⟩

theorem Lease.tick_eq (l : Lease) : l.tick = leaseRun l := by
  cases l <;> rfl

theorem Record.tick_eq (r : Record) : r.tick = recordRun r := by
  obtain ⟨q, _ | ⟨ph, base, cur, l, w, reads, writes, tag⟩⟩ := r
  · rfl
  · cases l with
    | untimed => simp [Record.tick, recordRun, Grant.leaseRuns, Lease.isTimed, leaseRun]
    | timed k p u =>
      cases hc : ph.isClosing <;> simp [Record.tick, recordRun, Grant.leaseRuns, Lease.isTimed, Lease.tick, leaseRun, hc]

theorem TagEntry.tick_eq (e : TagEntry) : e.tick = tagRun e := by
  cases e <;> rfl

/-- One unit of time passes unless an expiry is due (log entry 3). -/
theorem State.tick_eq_of_quiet {s : State} (h : ¬ timerDue s) : s.tick = { s with
    grants := Vector.ofFn fun i : GrantIdx => recordRun s.grants[i]
    tags := Vector.ofFn fun n : TagNo => tagRun s.tags[n]
    notice := { s.notice with holdoffTimer := s.notice.holdoffTimer.map fun u => u - 1 } } := by
  unfold State.tick
  rw [if_neg (by rwa [State.expiryDue_iff])]
  simp only [Record.tick_eq, TagEntry.tick_eq]

theorem State.tick_eq_of_due {s : State} (h : timerDue s) : s.tick = s := by
  unfold State.tick
  rw [if_pos (s.expiryDue_iff.mpr h)]

theorem change_tick (s : State) : Change s s.tick := by
  by_cases h : timerDue s
  · rw [State.tick_eq_of_due h]
    exact .same
  · rw [State.tick_eq_of_quiet h]
    exact .ticked h

/-! ### The two inductions -/

/-- A relation that is reflexive and transitive, holds across each change and survives moderation holds across every command. -/
theorem exec_induction {R : State → State → Prop} (refl : ∀ s, R s s) (trans : ∀ {s u t}, R s u → R u t → R s t)
    (change : ∀ {s x}, Change s x → R s x) (moderated : ∀ {s x}, R s x → R s (moderate s x))
    {c : Instr} {s t : State} (h : exec c s = .next t) : R s t := by
  have makes : ∀ {s t}, Makes s t → R s t := by
    rintro s t ⟨x, hx, rfl | rfl⟩
    · exact change hx
    · exact moderated (change hx)
  have grants : ∀ k n s, R s (State.grantsBefore k n s) := by
    intro k n
    induction n with
    | zero => exact refl
    | succ n ih =>
      intro s
      unfold State.grantsBefore
      split
      · exact trans (makes (makes_tagGrant s)) (ih _)
      · exact refl s
  obtain ⟨k, n, hm⟩ := exec_makes h
  exact trans (grants k n s) (makes hm)

/-- An invariant that does not speak of the queue of commands, that each change keeps and moderation keeps, is kept by every
step. -/
theorem step_keeps {P : State → Prop} (queue : ∀ {s} (l : List Instr), P s → P { s with pending := l })
    (moderated : ∀ {x} (s : State), P x → P (moderate s x)) (change : ∀ {s x}, Change s x → P s → P x)
    {s t : State} (h : step s = .next t) (hs : P s) : P t := by
  unfold step at h
  split at h
  · cases h
    exact change (change_tick s) hs
  · rename_i c rest _
    exact exec_induction (R := fun s t => P s → P t) (fun _ h => h) (fun h h' hs => h' (h hs)) change
      (fun h hs => moderated _ (h hs)) h (queue rest hs)

end Sys2Proof.Machine
end

section
/-! PROOF. What each port holds agrees with the outstanding read table (R64, R69, R73): which changes of the tags leave the number
of a requester's reads, and that an issue and a retirement move the port and the tag together. -/

namespace Sys2Proof.Machine

open Sys2Proof.Safety

/-! ### The account of one port -/

/-- A port agrees with the reads that the tags hold for its requester: `portAccounted`, of the two parts that it speaks of. -/
def agrees (p : PortNo) (q : Port) (tags : Vector TagEntry 32) : Prop :=
  q.outstanding = tags.toList.countP (TagEntry.liveFor p)
    ∧ (∀ l : Label, tags.toList.countP (holdsLabel p l) = (q.labels.getLsbD l.toNat).toNat)
    ∧ q.outstanding ≤ q.readLimit ∧ 1 ≤ q.readLimit ∧ q.readLimit ≤ 8

theorem portsAccounted_iff (s : State) : PortsAccounted s ↔ ∀ p : PortNo, agrees p s.ports[p] s.tags :=
  Iff.rfl

/-- A change of a port that the tag table has no part in. -/
theorem agrees_of_port {p : PortNo} {q q' : Port} {tags : Vector TagEntry 32} (h : agrees p q tags)
    (ho : q'.outstanding = q.outstanding) (hl : q'.labels = q.labels) (hr : q'.readLimit = q.readLimit) :
    agrees p q' tags := by
  unfold agrees
  rwa [ho, hl, hr]

/-- Two entries hold the same reads for a requester. -/
def sameReads (p : PortNo) (e e' : TagEntry) : Prop :=
  e'.liveFor p = e.liveFor p ∧ ∀ l, holdsLabel p l e' = holdsLabel p l e

/-- An entry holds no read for a requester. -/
def noRead (p : PortNo) (e : TagEntry) : Prop :=
  e.liveFor p = false ∧ ∀ l, holdsLabel p l e = false

theorem sameReads_of_noRead {p : PortNo} {e e' : TagEntry} (h : noRead p e) (h' : noRead p e') : sameReads p e e' :=
  ⟨h'.1.trans h.1.symm, fun l => (h'.2 l).trans (h.2 l).symm⟩

theorem noRead_free (p : PortNo) : noRead p .free := ⟨rfl, fun _ => rfl⟩

theorem noRead_parked (p : PortNo) (i u : Nat) : noRead p (.parked i u) := ⟨rfl, fun _ => rfl⟩

theorem noRead_detached (p : PortNo) {r : ReadInfo} (h : r.detached = true) (i u : Nat) : noRead p (.waiting r i u) := by
  simp [noRead, TagEntry.liveFor, holdsLabel, h]

theorem noRead_other {p : PortNo} {r : ReadInfo} (h : r.requester ≠ p) (i u : Nat) : noRead p (.waiting r i u) := by
  simp [noRead, TagEntry.liveFor, holdsLabel, h]

theorem sameReads_tagRun (p : PortNo) (e : TagEntry) : sameReads p e (tagRun e) := by
  cases e <;> exact ⟨rfl, fun _ => rfl⟩

/-- A read that is let go is no longer held for its requester (R86). -/
theorem noRead_letGo {chosen : PortNo → Bool} {p : PortNo} (h : chosen p = true) (e : TagEntry) :
    noRead p (letGo chosen e) := by
  cases e with
  | free => exact noRead_free p
  | parked i u => exact noRead_parked p i u
  | waiting r i u =>
    dsimp only [letGo]
    by_cases hp : r.requester = p
    · rw [hp, if_pos h]
      exact noRead_detached p rfl i u
    · split
      · exact noRead_detached p rfl i u
      · exact noRead_other hp i u

theorem sameReads_letGo {chosen : PortNo → Bool} {p : PortNo} (h : chosen p = false) (e : TagEntry) :
    sameReads p e (letGo chosen e) := by
  cases e with
  | free | parked => exact ⟨rfl, fun _ => rfl⟩
  | waiting r i u =>
    dsimp only [letGo]
    split
    · rename_i hc
      have hp : r.requester ≠ p := fun e => by rw [e, h] at hc; cases hc
      have hp' : ({ r with detached := true } : ReadInfo).requester ≠ p := hp
      exact sameReads_of_noRead (noRead_other hp i u) (noRead_other hp' i u)
    · exact ⟨rfl, fun _ => rfl⟩

/-! ### Counting entries -/

/-- A tag that is set counts as the new entry counts, and no longer as the old one. -/
theorem countP_tags_set (f : TagEntry → Bool) (tags : Vector TagEntry 32) (n : TagNo) (e : TagEntry) :
    (tags.set n e).toList.countP f + (f tags[n]).toNat = tags.toList.countP f + (f e).toNat := by
  have hn : n.val < tags.toList.length := by simp
  have hle := List.boole_getElem_le_countP (p := f) hn
  have hget : tags.toList[n.val] = tags[n] := by simp
  rw [Vector.toList_set, List.countP_set hn]
  rw [hget] at hle ⊢
  generalize f tags[n] = b at hle ⊢
  cases b <;> cases f e <;> simp only [Bool.toNat, cond, if_true, Bool.false_eq_true, if_false] at hle ⊢ <;> omega

/-- A tag whose new entry holds what the old one held leaves every account. -/
theorem agrees_setTag {p : PortNo} {q : Port} {tags : Vector TagEntry 32} {n : TagNo} {e : TagEntry} (h : agrees p q tags)
    (he : sameReads p tags[n] e) : agrees p q (tags.set n e) := by
  obtain ⟨ho, hl, hlimit⟩ := h
  have live := countP_tags_set (TagEntry.liveFor p) tags n e
  rw [he.1] at live
  refine ⟨by omega, fun l => ?_, hlimit⟩
  have labelled := countP_tags_set (holdsLabel p l) tags n e
  rw [he.2 l] at labelled
  rw [← hl l]
  omega

/-- So does a change of every tag. -/
theorem agrees_mapTags {p : PortNo} {q : Port} {tags : Vector TagEntry 32} {f : TagEntry → TagEntry} (h : agrees p q tags)
    (hf : ∀ e, sameReads p e (f e)) : agrees p q (Vector.ofFn fun n : TagNo => f tags[n]) := by
  have hmap : (Vector.ofFn fun n : TagNo => f tags[n]) = tags.map f := by
    ext n hn
    simp
  have count : ∀ g : TagEntry → Bool, (∀ e, g (f e) = g e) → (tags.map f).toList.countP g = tags.toList.countP g := by
    intro g hg
    rw [Vector.toList_map, List.countP_map]
    exact List.countP_congr fun e _ => by simp [hg]
  obtain ⟨ho, hl, hlimit⟩ := h
  rw [hmap]
  refine ⟨ho.trans (count _ fun e => (hf e).1).symm, fun l => ?_, hlimit⟩
  rw [count _ fun e => (hf e).2 l, hl l]

/-- A clean port agrees with tags that hold no read for it (R85, R89). -/
theorem agrees_clean {p : PortNo} {q : Port} {tags : Vector TagEntry 32} (ho : q.outstanding = 0) (hl : q.labels = 0#8)
    (hmin : 1 ≤ q.readLimit) (hmax : q.readLimit ≤ 8) (h : ∀ n : TagNo, noRead p tags[n]) : agrees p q tags := by
  have count : ∀ g : TagEntry → Bool, (∀ n : TagNo, g tags[n] = false) → tags.toList.countP g = 0 := by
    intro g hg
    rw [List.countP_eq_zero]
    intro e he
    obtain ⟨n, hn, rfl⟩ := Vector.mem_iff_getElem.mp (Vector.mem_toList_iff.mp he)
    exact Bool.eq_false_iff.mp (hg ⟨n, hn⟩)
  refine ⟨?_, fun l => ?_, ?_, hmin, hmax⟩
  · rw [ho, count _ fun n => (h n).1]
  · rw [count _ fun n => (h n).2 l, hl]
    simp
  · omega

/-! ### Labels as a set -/

theorem getLsbD_single {w : Nat} (n m : Nat) (h : m < w) : (1#w <<< n).getLsbD m = decide (n = m) := by
  rw [BitVec.getLsbD_shiftLeft, BitVec.getLsbD_one]
  by_cases hnm : n = m
  · subst hnm
    simp [h]
    omega
  · simp [h, hnm]
    omega

theorem getLsbD_label_added (x : Set8) (l l' : Label) :
    (x ||| 1#8 <<< l.toNat).getLsbD l'.toNat = (x.getLsbD l'.toNat || decide (l = l')) := by
  have h : l'.toNat < 8 := l'.isLt
  rw [BitVec.getLsbD_or, getLsbD_single _ _ h]
  simp only [BitVec.toNat_inj]

theorem getLsbD_label_removed (x : Set8) (l l' : Label) :
    (x &&& ~~~ (1#8 <<< l.toNat)).getLsbD l'.toNat = (x.getLsbD l'.toNat && !decide (l = l')) := by
  have h : l'.toNat < 8 := l'.isLt
  rw [BitVec.getLsbD_and, BitVec.getLsbD_not, getLsbD_single _ _ h]
  simp only [h, decide_true, Bool.true_and, BitVec.toNat_inj]

/-! ### The issue and the retirement of a read -/

theorem liveFor_own {r : ReadInfo} (h : r.detached = false) (i u : Nat) :
    (TagEntry.waiting r i u).liveFor r.requester = true := by
  simp [TagEntry.liveFor, h]

theorem holdsLabel_own {r : ReadInfo} (h : r.detached = false) (i u : Nat) (l : Label) :
    holdsLabel r.requester l (.waiting r i u) = decide (r.label = l) := by
  simp [holdsLabel, h, BEq.beq]

/-- A read is issued into a FREE tag, with a label that is not in use (R69, R73, R98). -/
theorem agrees_issued {q q' : Port} {tags : Vector TagEntry 32} {n : TagNo} {r : ReadInfo} {i u : Nat}
    (h : agrees r.requester q tags) (free : tags[n] = .free) (live : r.detached = false)
    (unused : q.labels.getLsbD r.label.toNat = false) (limit : q.outstanding < q.readLimit)
    (ho : q'.outstanding = q.outstanding + 1) (hl : q'.labels = q.labels ||| 1#8 <<< r.label.toNat)
    (hr : q'.readLimit = q.readLimit) : agrees r.requester q' (tags.set n (.waiting r i u)) := by
  obtain ⟨hcount, hlabels, -, hmin, hmax⟩ := h
  unfold agrees
  rw [ho, hl, hr]
  refine ⟨?_, fun l => ?_, limit, hmin, hmax⟩
  · have := countP_tags_set (TagEntry.liveFor r.requester) tags n (.waiting r i u)
    rw [free, (noRead_free _).1, liveFor_own live] at this
    simp only [Bool.toNat_false, Bool.toNat_true] at this
    omega
  · have := countP_tags_set (holdsLabel r.requester l) tags n (.waiting r i u)
    rw [free, (noRead_free _).2, holdsLabel_own live, hlabels l] at this
    rw [getLsbD_label_added]
    by_cases he : r.label = l
    · subst he
      simp [unused] at this ⊢
      omega
    · simp [he] at this ⊢
      omega

/-- A read ends, and its tag is FREE or PARKED after it (R73, R103). -/
theorem agrees_retired {q q' : Port} {tags : Vector TagEntry 32} {n : TagNo} {r : ReadInfo} {i u : Nat} {e : TagEntry}
    (h : agrees r.requester q tags) (tag : tags[n] = .waiting r i u) (live : r.detached = false) (he : noRead r.requester e)
    (ho : q'.outstanding = q.outstanding - 1) (hl : q'.labels = q.labels &&& ~~~ (1#8 <<< r.label.toNat))
    (hr : q'.readLimit = q.readLimit) : agrees r.requester q' (tags.set n e) := by
  obtain ⟨hcount, hlabels, hle, hmin, hmax⟩ := h
  unfold agrees
  rw [ho, hl, hr]
  refine ⟨?_, fun l => ?_, by omega, hmin, hmax⟩
  · have := countP_tags_set (TagEntry.liveFor r.requester) tags n e
    rw [tag, he.1, liveFor_own live] at this
    simp only [Bool.toNat_false, Bool.toNat_true] at this
    omega
  · have := countP_tags_set (holdsLabel r.requester l) tags n e
    rw [tag, he.2, holdsLabel_own live, hlabels l] at this
    rw [getLsbD_label_removed]
    by_cases heq : r.label = l
    · subst heq
      cases hb : q.labels.getLsbD r.label.toNat <;> simp [hb] at this ⊢
      omega
    · simp [heq] at this ⊢
      omega

/-! ### The state's ports and tags -/

theorem ports_set_get (s : State) (p p' : PortNo) (q : Port) :
    (s.ports.set p q)[p'] = if p = p' then q else s.ports[p'] :=
  State.setPort_get p p' q s

theorem portsAccounted_of_frame {s t : State} (h : PortsAccounted s) (hp : t.ports = s.ports) (ht : t.tags = s.tags) :
    PortsAccounted t := by
  rw [portsAccounted_iff] at h ⊢
  rwa [hp, ht]

/-- A change of one port that the tag table has no part in. -/
theorem portsAccounted_of_port {s t : State} {p : PortNo} {q : Port} (h : PortsAccounted s) (hp : t.ports = s.ports.set p q)
    (ht : t.tags = s.tags) (hq : agrees p s.ports[p] s.tags → agrees p q s.tags) : PortsAccounted t := by
  rw [portsAccounted_iff] at h ⊢
  intro p'
  rw [hp, ht, ports_set_get]
  split
  · rename_i e
    subst e
    exact hq (h p)
  · exact h p'

theorem portsAccounted_of_tag {s t : State} {n : TagNo} {e : TagEntry} (h : PortsAccounted s) (hp : t.ports = s.ports)
    (ht : t.tags = s.tags.set n e) (he : ∀ p, sameReads p s.tags[n] e) : PortsAccounted t := by
  rw [portsAccounted_iff] at h ⊢
  intro p
  rw [hp, ht]
  exact agrees_setTag (h p) (he p)

/-- A change of one port and one tag, whose reads are those of that port's requester. -/
theorem portsAccounted_of_both {s t : State} {p : PortNo} {q : Port} {n : TagNo} {e : TagEntry} (h : PortsAccounted s)
    (hp : t.ports = s.ports.set p q) (ht : t.tags = s.tags.set n e) (own : agrees p q (s.tags.set n e))
    (others : ∀ p', p ≠ p' → sameReads p' s.tags[n] e) : PortsAccounted t := by
  rw [portsAccounted_iff] at h ⊢
  intro p'
  rw [hp, ht, ports_set_get]
  split
  · rename_i e
    subst e
    exact own
  · rename_i hne
    exact agrees_setTag (h p') (others p' hne)

theorem portsAccounted_initial {t : State} (hp : t.ports = Vector.replicate 8 Port.initial)
    (ht : t.tags = Vector.replicate 32 TagEntry.free) : PortsAccounted t := by
  rw [portsAccounted_iff]
  intro p
  have hport : t.ports[p] = Port.initial := by simp [hp]
  rw [hport]
  refine agrees_clean rfl rfl (by decide) (by decide) fun n => ?_
  have htag : t.tags[n] = .free := by simp [ht]
  rw [htag]
  exact noRead_free p

/-! ### The changes -/

theorem faulted_account (q : Port) (f : FaultRecord) : (faulted q f).outstanding = q.outstanding
    ∧ (faulted q f).labels = q.labels ∧ (faulted q f).readLimit = q.readLimit := by
  unfold faulted
  split <;> exact ⟨rfl, rfl, rfl⟩

theorem portRefusing_account (q : Port) (a : Access) (r : Result) (h : Option Handle) :
    (portRefusing q a r h).outstanding = q.outstanding ∧ (portRefusing q a r h).labels = q.labels
      ∧ (portRefusing q a r h).readLimit = q.readLimit := by
  unfold portRefusing
  split
  · exact ⟨rfl, rfl, rfl⟩
  · exact faulted_account _ _

/-- What the port of a retired read keeps of its account, whether a fault is captured or not (R73). -/
theorem endedPort_account {q port : Port} {r : ReadInfo}
    (h : port = portAfterRead q r ∨ ∃ f, port = faulted (portAfterRead q r) f) :
    port.outstanding = q.outstanding - 1 ∧ port.labels = q.labels &&& ~~~ (1#8 <<< r.label.toNat)
      ∧ port.readLimit = q.readLimit := by
  obtain rfl | ⟨f, rfl⟩ := h
  · exact ⟨rfl, rfl, rfl⟩
  · exact faulted_account _ _

theorem noRead_retired {e : TagEntry} {i : Nat} (h : e = .free ∨ e = .parked i (i * 100)) (p : PortNo) : noRead p e := by
  obtain rfl | rfl := h
  · exact noRead_free p
  · exact noRead_parked p _ _

theorem portsAccounted_change {s x : State} (hc : Change s x) (h : PortsAccounted s) : PortsAccounted x := by
  cases hc with
  | powerOn | linkDown | tornDown => exact portsAccounted_initial rfl rfl
  | lrstAsserted =>
    rw [portsAccounted_iff] at h ⊢
    intro p
    have hport : (Vector.ofFn fun p : PortNo => cleanPort s.ports[p])[p] = cleanPort s.ports[p] := by simp
    obtain ⟨-, -, -, hmin, hmax⟩ := h p
    rw [hport]
    refine agrees_clean rfl rfl hmin hmax fun n => ?_
    have htag : (Vector.ofFn fun n : TagNo => letGo (fun _ => true) s.tags[n])[n] = letGo (fun _ => true) s.tags[n] := by simp
    rw [htag]
    exact noRead_letGo rfl _
  | headTaken => exact portsAccounted_of_port h rfl rfl fun hp => agrees_of_port hp rfl rfl rfl
  | headRefused =>
    obtain ⟨ho, hl, hr⟩ := portRefusing_account _ _ _ _
    exact portsAccounted_of_port h rfl rfl fun hp => agrees_of_port hp ho hl hr
  | @readIssued p n a len l i g host head limit free formed =>
    have unused : s.ports[p].labels.getLsbD l.toNat = false :=
      Bool.eq_false_iff.mpr fun hu => formed (.inr (.inr (.inr hu)))
    refine portsAccounted_of_both h rfl rfl
      (agrees_issued (r := ⟨p, l, false, i, g.cur.number, host, len, 0⟩) (h p) free rfl unused limit rfl rfl rfl) fun p' hne => ?_
    rw [free]
    exact sameReads_of_noRead (noRead_free p') (noRead_other hne _ _)
  | writeAccepted => exact portsAccounted_of_port h rfl rfl fun hp => agrees_of_port hp rfl rfl rfl
  | bytesTaken tag =>
    refine portsAccounted_of_tag h rfl rfl fun p => ?_
    rw [tag]
    exact ⟨rfl, fun _ => rfl⟩
  | @readRetired n r i u res next port beats c tag after ended =>
    cases hd : r.detached with
    | true =>
      refine portsAccounted_of_tag h (if_pos hd) rfl fun p => ?_
      rw [tag]
      exact sameReads_of_noRead (noRead_detached p hd i u) (noRead_retired after p)
    | false =>
      obtain ⟨ho, hl, hr⟩ := endedPort_account ended
      refine portsAccounted_of_both h (if_neg (Bool.eq_false_iff.mp hd)) rfl
        (agrees_retired (h r.requester) tag hd (noRead_retired after _) ho hl hr) fun p' hne => ?_
      rw [tag]
      exact sameReads_of_noRead (noRead_other hne i u) (noRead_retired after p')
  | tagFreed tag =>
    refine portsAccounted_of_tag h rfl rfl fun p => ?_
    rw [tag]
    exact sameReads_of_noRead (noRead_parked p _ _) (noRead_free p)
  | ticked =>
    rw [portsAccounted_iff] at h ⊢
    exact fun p => agrees_mapTags (h p) (sameReads_tagRun p)
  | @requesterSet k rest area p policy limit front range =>
    refine portsAccounted_of_port h rfl rfl fun hp => ?_
    obtain rfl | ⟨hle, hmin, hmax⟩ := range
    · exact agrees_of_port hp rfl rfl rfl
    · obtain ⟨ho, hl, -⟩ := hp
      exact ⟨ho, hl, hle, hmin, hmax⟩
  | requesterResumed => exact portsAccounted_of_port h rfl rfl fun hp => agrees_of_port hp rfl rfl rfl
  | @requesterReset k rest area p =>
    rw [portsAccounted_iff] at h ⊢
    intro p'
    change agrees p' (s.ports.set p (cleanPort s.ports[p]))[p'] _
    rw [ports_set_get]
    split
    · rename_i e
      subst e
      obtain ⟨-, -, -, hmin, hmax⟩ := h p
      refine agrees_clean rfl rfl hmin hmax fun n => ?_
      have htag : (Vector.ofFn fun n : TagNo => letGo (fun q => q == p) s.tags[n])[n] = letGo (fun q => q == p) s.tags[n] := by
        simp
      change noRead p (Vector.ofFn fun n : TagNo => letGo (fun q => q == p) s.tags[n])[n]
      rw [htag]
      exact noRead_letGo (chosen := fun q => q == p) (beq_self_eq_true p) _
    · rename_i hne
      exact agrees_mapTags (h p') (sameReads_letGo (chosen := fun q => q == p) (beq_false_of_ne (Ne.symm hne)))
  | _ => exact portsAccounted_of_frame h rfl rfl

/-- Settles O54: an issue and a retirement move the port's account with the tag, and every other change leaves the reads that the
tags hold for a requester, or lets them all go and cleans its port. -/
theorem stepKeepsPortsAccounted : Obligations.StepKeepsPortsAccounted :=
  fun _ _ => step_keeps (P := PortsAccounted) (fun _ h => h)
    (fun s h => portsAccounted_of_frame h (moderate_ports s _) (moderate_tags s _)) portsAccounted_change

end Sys2Proof.Machine
end

section
/-! PROOF. The outbound list (R169, R170, R172): it loses its front and what a retirement withdraws, and gains the memory read of a
tag that was FREE, or a message where none waits. -/

namespace Sys2Proof.Machine

open Sys2Proof.Safety

/-! ### A sound list -/

/-- `OutboundSound`, of the three parts that it speaks of. -/
structure OutboundGood (l : List Request) (messaging : Bool) (tags : Vector TagEntry 32) : Prop where
  writes : ∀ a n d, Request.memWrite a n d ∉ l
  messages : l.count .message ≤ 1
  tagsOnce : (l.filterMap readTag).Nodup
  reads : ∀ t a n, Request.memRead t a n ∈ l → ∃ r i u, tags[t] = .waiting r i u ∧ r.hostAddr = a ∧ r.length = n
  held : messaging = true → l.head? = some .message

theorem outboundSound_iff (s : State) :
    OutboundSound s ↔ OutboundGood s.link.outbound s.link.messaging s.tags :=
  ⟨fun ⟨h1, h2, h3, h4, h5⟩ => ⟨h1, h2, h3, h4, h5⟩, fun ⟨h1, h2, h3, h4, h5⟩ => ⟨h1, h2, h3, h4, h5⟩⟩

theorem outboundGood_nil (tags : Vector TagEntry 32) : OutboundGood [] false tags := by
  constructor <;> simp

/-- The front leaves the list, and no enable is held for what is behind it (R169). -/
theorem outboundGood_tail {x : Request} {l : List Request} {m : Bool} {tags : Vector TagEntry 32}
    (h : OutboundGood (x :: l) m tags) : OutboundGood l false tags where
  writes a n d hm := h.writes a n d (List.mem_cons_of_mem x hm)
  messages := le_trans (List.count_le_count_cons) h.messages
  tagsOnce := by
    have := h.tagsOnce
    rw [List.filterMap_cons] at this
    split at this
    · exact this
    · exact this.of_cons
  reads t a n hm := h.reads t a n (List.mem_cons_of_mem x hm)
  held hm := by cases hm

/-- An enable is held for a message at the front alone. -/
theorem messaging_off_of_memRead {t : TagNo} {a : HostAddr} {n : Nat} {l : List Request} {m : Bool}
    {tags : Vector TagEntry 32} (h : OutboundGood (.memRead t a n :: l) m tags) : m = false := by
  cases hm : m with
  | false => rfl
  | true =>
    have := h.held hm
    simp at this

/-- A message joins the list, or merges into the one that waits there (R172). -/
theorem outboundGood_message {l : List Request} {m : Bool} {tags : Vector TagEntry 32} (h : OutboundGood l m tags)
    (c : Prop) [Decidable c] (hc : ¬ c → Request.message ∉ l) : OutboundGood (if c then l else l ++ [.message]) m tags := by
  split
  · exact h
  · rename_i hn
    constructor
    · simpa using h.writes
    · rw [List.count_append, List.count_eq_zero.mpr (hc hn)]
      simp
    · have hnone : [Request.message].filterMap readTag = [] := rfl
      rw [List.filterMap_append, hnone, List.append_nil]
      exact h.tagsOnce
    · simpa using h.reads
    · intro hm
      rw [List.head?_append, h.held hm]
      rfl

/-- The memory read of a tag that was FREE joins the list (R170). -/
theorem outboundGood_read {l : List Request} {m : Bool} {tags : Vector TagEntry 32} {n : TagNo} {r : ReadInfo} {i u : Nat}
    (h : OutboundGood l m tags) (free : tags[n] = .free) :
    OutboundGood (l ++ [.memRead n r.hostAddr r.length]) m (tags.set n (.waiting r i u)) := by
  have unsent : ∀ a len, Request.memRead n a len ∉ l := by
    intro a len hm
    obtain ⟨r', i', u', ht, -⟩ := h.reads n a len hm
    rw [free] at ht
    cases ht
  have hset : ∀ t : TagNo, (tags.set n (.waiting r i u))[t] = if n = t then .waiting r i u else tags[t] := by
    intro t
    simp [Vector.getElem_set, Fin.ext_iff]
  constructor
  · simpa using h.writes
  · rw [List.count_append]
    simpa using h.messages
  · rw [List.filterMap_append, List.nodup_append]
    refine ⟨h.tagsOnce, by simp [readTag], ?_⟩
    rintro t ht t' ht' rfl
    obtain rfl : t = n := by simpa [readTag] using ht'
    obtain ⟨x, hx, hxt⟩ := List.mem_filterMap.mp ht
    cases x with
    | memRead t' a len =>
      obtain rfl : t' = t := by simpa [readTag] using hxt
      exact unsent a len hx
    | memWrite | message => cases hxt
  · intro t a len hm
    rw [hset]
    obtain hm | hm := List.mem_append.mp hm
    · have hne : n ≠ t := by
        rintro rfl
        exact unsent a len hm
      rw [if_neg hne]
      exact h.reads t a len hm
    · obtain ⟨rfl, rfl, rfl⟩ : t = n ∧ a = r.hostAddr ∧ len = r.length := by simpa using hm
      rw [if_pos rfl]
      exact ⟨r, i, u, rfl, rfl, rfl⟩
  · intro hm
    rw [List.head?_append, h.held hm]
    rfl

/-- The unsent memory read of a retired tag is withdrawn (R103, R170). -/
theorem outboundGood_withdrawn {l : List Request} {m : Bool} {tags : Vector TagEntry 32} (h : OutboundGood l m tags)
    (n : TagNo) (e : TagEntry) : OutboundGood (l.filter fun x => readTag x != some n) m (tags.set n e) := by
  constructor
  · intro a len d hm
    exact h.writes a len d (List.mem_of_mem_filter hm)
  · exact le_trans (List.filter_sublist.count_le _) h.messages
  · exact h.tagsOnce.sublist (List.filter_sublist.filterMap _)
  · intro t a len hm
    obtain ⟨hl, ht⟩ := List.mem_filter.mp hm
    have hne : t ≠ n := by simpa [readTag] using ht
    have hset : (tags.set n e)[t] = tags[t] := by
      have : ¬ n.val = t.val := fun hv => hne (Fin.ext hv.symm)
      simp [this]
    rw [hset]
    exact h.reads t a len hl
  · intro hm
    have := h.held hm
    cases l with
    | nil => cases this
    | cons x l =>
      obtain rfl : x = .message := by simpa using this
      simp [readTag]

/-! ### Tags that keep their reads -/

/-- Each WAITING tag is WAITING still, with a read of the same host address and length. -/
def keepsReads (tags tags' : Vector TagEntry 32) : Prop :=
  ∀ (t : TagNo) r i u, tags[t] = .waiting r i u →
    ∃ r' i' u', tags'[t] = .waiting r' i' u' ∧ r'.hostAddr = r.hostAddr ∧ r'.length = r.length

theorem outboundGood_of_keepsReads {l : List Request} {m : Bool} {tags tags' : Vector TagEntry 32}
    (h : OutboundGood l m tags) (hk : keepsReads tags tags') : OutboundGood l m tags' where
  writes := h.writes
  messages := h.messages
  tagsOnce := h.tagsOnce
  held := h.held
  reads t a n hm := by
    obtain ⟨r, i, u, ht, rfl, rfl⟩ := h.reads t a n hm
    exact hk t r i u ht

theorem keepsReads_map {tags : Vector TagEntry 32} {f : TagEntry → TagEntry}
    (hf : ∀ r i u, ∃ r' i' u', f (.waiting r i u) = .waiting r' i' u' ∧ r'.hostAddr = r.hostAddr ∧ r'.length = r.length) :
    keepsReads tags (Vector.ofFn fun n : TagNo => f tags[n]) := by
  intro t r i u ht
  have hget : (Vector.ofFn fun n : TagNo => f tags[n])[t] = f tags[t] := by simp
  rw [hget, ht]
  exact hf r i u

theorem keepsReads_letGo (chosen : PortNo → Bool) (tags : Vector TagEntry 32) :
    keepsReads tags (Vector.ofFn fun n : TagNo => letGo chosen tags[n]) := by
  refine keepsReads_map fun r i u => ⟨if chosen r.requester then { r with detached := true } else r, i, u, rfl, ?_⟩
  split <;> exact ⟨rfl, rfl⟩

theorem keepsReads_set {tags : Vector TagEntry 32} {n : TagNo} {e : TagEntry}
    (he : ∀ r i u, tags[n] = .waiting r i u →
      ∃ r' i' u', e = .waiting r' i' u' ∧ r'.hostAddr = r.hostAddr ∧ r'.length = r.length) :
    keepsReads tags (tags.set n e) := by
  intro t r i u ht
  have hset : (tags.set n e)[t] = if n = t then e else tags[t] := by simp [Vector.getElem_set, Fin.ext_iff]
  rw [hset]
  split
  · rename_i hn
    subst hn
    exact he r i u ht
  · exact ⟨r, i, u, ht, rfl, rfl⟩

/-! ### The changes -/

theorem outboundSound_change {s x : State} (hc : Change s x) (h : OutboundSound s) : OutboundSound x := by
  rw [outboundSound_iff] at h ⊢
  cases hc with
  | powerOn | linkDown | tornDown => exact outboundGood_nil _
  | readSent up front =>
    rw [front] at h
    have off := messaging_off_of_memRead h
    rw [show _ = false from off]
    exact outboundGood_tail h
  | messageSent up front =>
    rw [front] at h
    exact outboundGood_tail h
  | messageDropped up front off =>
    rw [front] at h
    rw [show _ = false from off]
    exact outboundGood_tail h
  | messageHeld up front => exact ⟨h.writes, h.messages, h.tagsOnce, h.reads, fun _ => by rw [front]; rfl⟩
  | lrstAsserted => exact outboundGood_of_keepsReads h (keepsReads_letGo _ _)
  | @readIssued p n a len l i g host head limit free =>
    exact outboundGood_read (r := ⟨p, l, false, i, g.cur.number, host, len, 0⟩) h free
  | bytesTaken tag =>
    refine outboundGood_of_keepsReads h (keepsReads_set fun r i u ht => ?_)
    cases tag.symm.trans ht
    exact ⟨_, _, _, rfl, rfl, rfl⟩
  | readRetired => exact outboundGood_withdrawn h _ _
  | tagFreed tag =>
    refine outboundGood_of_keepsReads h (keepsReads_set fun r i u ht => ?_)
    cases tag.symm.trans ht
  | ticked => exact outboundGood_of_keepsReads h (keepsReads_map fun r i u => ⟨r, i, u - 1, rfl, rfl, rfl⟩)
  | requesterReset => exact outboundGood_of_keepsReads h (keepsReads_letGo _ _)
  | messageAttempted => exact outboundGood_message h _ fun hn hm => hn (.inr hm)
  | _ => exact h

theorem outboundSound_moderate (s : State) {x : State} (h : OutboundSound x) : OutboundSound (moderate s x) := by
  rw [outboundSound_iff] at h ⊢
  rw [moderate_tags]
  obtain ⟨-, he⟩ | ⟨-, -, he⟩ | ⟨-, -, he⟩ := moderate_cases s x <;> rw [he]
  · exact h
  · exact h
  · exact outboundGood_message h _ fun hn hm => hn (.inr hm)

/-- Settles O57: a memory read joins only for a tag that was FREE and leaves with its tag, and a message joins only where none
waits. -/
theorem stepKeepsOutboundSound : Obligations.StepKeepsOutboundSound :=
  fun _ _ => step_keeps (P := OutboundSound) (fun _ h => h) (fun s h => outboundSound_moderate s h) outboundSound_change

end Sys2Proof.Machine
end

section
/-! PROOF. The part while the link is DOWN (R165): nothing of the host side moves, because no command of the host or of the link
is taken, no grant is there for an access to pass under, and no slot is submitted. -/

namespace Sys2Proof.Machine

open Sys2Proof.Safety

/-- The host side at its defaults: what `DownIsQuiet` says of the part while the link is DOWN. -/
structure HostQuiet (s : State) : Prop where
  grants : ∀ i : GrantIdx, s.grants[i].grant = none
  heads : ∀ p : PortNo, s.ports[p].head = none
  tags : ∀ t : TagNo, s.tags[t] = .free
  queue : s.queue = []
  order : s.order = []
  slots : ∀ k : SlotNo, s.slots[k] = Slot.initial
  expired : s.expired = 0#64
  enable : s.notice.enable = 0#15
  master : s.notice.masterEnable = false
  count : s.notice.eventCount = 0
  timer : s.notice.holdoffTimer = none
  timing : s.timing = { timeout := 16, threshold := 1, holdoff := 0 }
  tagLast : s.tagLast = 7
  writeLast : s.writeLast = 7
  outbound : s.link.outbound = []
  posted : s.link.postedCredit = 0
  read : s.link.readCredit = 0
  messaging : s.link.messaging = false

theorem downIsQuiet_iff (s : State) : DownIsQuiet s ↔ (s.link.up = false → HostQuiet s) := by
  refine imp_congr_right fun _ => ⟨?_, ?_⟩
  · rintro ⟨h1, h2, h3, h4, h5, h6, h7, h8, h9, h10, h11, h12, h13, h14, h15, h16, h17, h18⟩
    exact ⟨h1, h2, h3, h4, h5, h6, h7, h8, h9, h10, h11, h12, h13, h14, h15, h16, h17, h18⟩
  · rintro ⟨h1, h2, h3, h4, h5, h6, h7, h8, h9, h10, h11, h12, h13, h14, h15, h16, h17, h18⟩
    exact ⟨h1, h2, h3, h4, h5, h6, h7, h8, h9, h10, h11, h12, h13, h14, h15, h16, h17, h18⟩

theorem hostQuiet_reset : HostQuiet State.reset := by
  constructor <;> intros <;> simp [State.reset, Record.initial, Port.initial, Notice.initial, Timing.initial, Link.initial,
    Config.defaultTimeoutMs, Config.defaultThreshold, Config.defaultHoldoff]

/-- A teardown leaves every index FREE (R2, R51). -/
theorem State.teardown_grant (s : State) (i : GrantIdx) : s.teardown.grants[i].grant = none := by
  have h : s.teardown.grants[i] = s.grants[i].tornDown := by simp [State.teardown]
  rw [h]
  unfold Record.tornDown
  split
  · rfl
  · rename_i hg
    simpa using hg

theorem hostQuiet_leaveUp (s : State) : HostQuiet s.leaveUp where
  grants i := s.teardown_grant i
  heads p := by simp [State.leaveUp, State.teardown, Port.initial]
  tags t := s.leaveUp_tag t
  queue := rfl
  order := rfl
  slots k := by simp [State.leaveUp, State.teardown]
  expired := rfl
  enable := rfl
  master := rfl
  count := rfl
  timer := rfl
  timing := rfl
  tagLast := rfl
  writeLast := rfl
  outbound := rfl
  posted := rfl
  read := rfl
  messaging := rfl

/-- With no cause enabled and master enable off, moderation leaves a quiet host side as it is (R157, R158). -/
theorem moderate_hostQuiet (s : State) {x : State} (h : HostQuiet x) : moderate s x = x := by
  have events : eventsBetween s x = 0 := by
    rw [eventsBetween_eq, h.enable]
    simp [members_zero]
  obtain ⟨-, he⟩ | ⟨-, -, he⟩ | ⟨-, hon, -⟩ := moderate_cases s x
  · rw [he]
    simp [events, countAfter]
  · rw [he]
    simp [events, countAfter]
  · rw [h.master] at hon
    cases hon

theorem moderate_up (s x : State) : (moderate s x).link.up = x.link.up := by
  rw [moderate_frame]

theorem downIsQuiet_moderate (s : State) {x : State} (h : DownIsQuiet x) : DownIsQuiet (moderate s x) := by
  rw [downIsQuiet_iff] at h ⊢
  rw [moderate_up]
  intro down
  rw [moderate_hostQuiet s (h down)]
  exact h down

/-- A change of the ports that leaves every head absent, of the LRST level and of the causes set. -/
theorem hostQuiet_of_ports {s x : State} (h : HostQuiet s) (heads : ∀ p : PortNo, x.ports[p].head = none)
    (same : x = { s with ports := x.ports, lrst := x.lrst, tags := x.tags, answers := x.answers
                         notice := { s.notice with status := x.notice.status } })
    (tags : ∀ t : TagNo, x.tags[t] = .free) : HostQuiet x := by
  rw [same] at heads tags ⊢
  exact ⟨h.grants, heads, tags, h.queue, h.order, h.slots, h.expired, h.enable, h.master, h.count, h.timer, h.timing,
    h.tagLast, h.writeLast, h.outbound, h.posted, h.read, h.messaging⟩

theorem portRefusing_head (q : Port) (a : Access) (r : Result) (h : Option Handle) : (portRefusing q a r h).head = none := by
  unfold portRefusing
  split
  · rfl
  · unfold faulted
    split <;> rfl

theorem downIsQuiet_change {s x : State} (hc : Change s x) (h : DownIsQuiet s) : DownIsQuiet x := by
  rw [downIsQuiet_iff] at h ⊢
  intro down
  cases hc with
  | same => exact h down
  | powerOn => exact ⟨hostQuiet_reset.1, hostQuiet_reset.2, hostQuiet_reset.3, rfl, rfl, hostQuiet_reset.6, rfl, rfl, rfl, rfl,
      rfl, rfl, rfl, rfl, rfl, rfl, rfl, rfl⟩
  | linkUp => cases down
  | linkDown => exact hostQuiet_leaveUp s
  | tornDown up | credited _ _ up | readSent up | messageSent up | messageDropped up | messageHeld up | entryLeft up
  | strayTaken up | submitted up | cancelled up | collided up | argumentWritten up | acknowledged _ up | enableSet _ up
  | masterSet _ up | expiredCleared _ up => cases up.symm.trans down
  | lrstAsserted =>
    have hs := h down
    refine hostQuiet_of_ports hs (fun p => ?_) rfl fun t => ?_
    · simp [cleanPort]
    · have ht := hs.tags t
      simp only [Fin.getElem_fin] at ht
      simp [ht, letGo]
  | lrstReleased => exact hostQuiet_of_ports (h down) (h down).heads rfl (h down).tags
  | headTaken released absent grant => cases ((h down).grants _).symm.trans grant
  | @headRefused p a r hd tl wl turn =>
    have hs := h down
    obtain ⟨rfl, rfl⟩ | head := turn
    · refine hostQuiet_of_ports hs (fun p' => ?_) rfl hs.tags
      change (s.ports.set p (portRefusing s.ports[p] a r hd))[p'].head = none
      rw [ports_set_get]
      split
      · exact portRefusing_head _ _ _ _
      · exact hs.heads p'
    · cases (hs.heads _).symm.trans head
  | readIssued head | writeAccepted head => cases ((h down).heads _).symm.trans head
  | bytesTaken tag | readRetired _ tag | tagFreed tag => cases ((h down).tags _).symm.trans tag
  | leaseExpired grant => cases ((h down).grants _).symm.trans grant
  | holdoffStopped =>
    have hs := h down
    exact ⟨hs.grants, hs.heads, hs.tags, hs.queue, hs.order, hs.slots, hs.expired, hs.enable, hs.master, hs.count, rfl,
      hs.timing, hs.tagLast, hs.writeLast, hs.outbound, hs.posted, hs.read, hs.messaging⟩
  | messageAttempted cause =>
    obtain up | due := cause
    · cases up.symm.trans down
    · cases (h down).timer.symm.trans due
  | ticked =>
    have hs := h down
    refine ⟨fun i => ?_, hs.heads, fun t => ?_, hs.queue, hs.order, hs.slots, hs.expired, hs.enable, hs.master, hs.count, ?_,
      hs.timing, hs.tagLast, hs.writeLast, hs.outbound, hs.posted, hs.read, hs.messaging⟩
    · have hi := hs.grants i
      simp only [Fin.getElem_fin] at hi
      simp [recordRun, hi]
    · have ht := hs.tags t
      simp only [Fin.getElem_fin] at ht
      simp [ht, tagRun]
    · dsimp only
      rw [hs.timer]
      rfl
  | slotEnded front | grantOpened front | grantAltered front | grantDrained front | closeFreed front | closeWaits front
  | closeAdopted front | fenceWaits front | requesterSet front | requesterResumed front | requesterReset front
  | timingSet front => cases (h down).order.symm.trans front

/-- Settles O58: in DOWN every event of the host and of the link is shut out, and the card's own finds no grant, no head access and
no tag in use. -/
theorem stepKeepsDownQuiet : Obligations.StepKeepsDownQuiet :=
  fun _ _ => step_keeps (P := DownIsQuiet) (fun _ h => h) (fun s h => downIsQuiet_moderate s h) downIsQuiet_change

end Sys2Proof.Machine
end

section
/-! PROOF. Slots, submission order, snapshots and waits (R6, R125, R126, R134, R137, R141): what a slot must be, by its state, and
that each change moves a slot together with the order, the grant or the snapshot that speaks of it. -/

namespace Sys2Proof.Machine

open Sys2Proof.Safety

/-! ### What a slot is, by its state -/

/-- The slot that a record's grant waits with. -/
def Record.waitsOn (r : Record) : Option SlotNo :=
  r.grant.bind Grant.waiting

/-- Some grant names the slot as its waiting slot. -/
def isNamed (grants : Vector Record 64) (k : SlotNo) : Prop :=
  ∃ i : GrantIdx, grants[i].waitsOn = some k

/-- A snapshot has members, each a WAITING tag or an entry of a queue of `n` (R125). -/
def snapshotLive (tags : Vector TagEntry 32) (n : Nat) (sn : Snapshot) : Prop :=
  sn.isEmpty = false ∧ (∀ t : TagNo, sn.tags.getLsbD t.val = true → ∃ r i u, tags[t] = .waiting r i u)
    ∧ ∀ m : Nat, sn.entries.getLsbD m = true → m < n

/-- A slot is sound for its state: `queued` says that the submission order lists it, `named` that a grant waits with it, and
`V` what holds of a snapshot. -/
def slotGood (queued named : Prop) (V : Snapshot → Prop) (sl : Slot) : Prop :=
  match sl.state with
  | .idle => ¬ queued ∧ ¬ named ∧ sl.status = .none ∧ sl.snapshot = none
  | .pending => queued ∧ ¬ named ∧ sl.status = .none ∧ sl.snapshot = none
  | .waiting => ¬ queued ∧ sl.status = .none ∧ (sl.snapshot = none ∧ named ∨ ∃ sn, sl.snapshot = some sn ∧ V sn ∧ ¬ named)
  | .done => ¬ queued ∧ ¬ named ∧ sl.status ≠ .none ∧ sl.snapshot = none

/-- A DRAINING grant waits with a slot and an OPEN one does not (R6, R41). -/
def phaseGood (g : Grant) : Prop :=
  (g.phase = .opened → g.waiting = none) ∧ ∀ p, g.phase = .draining p → g.waiting.isSome = true

/-- `SlotsSound`, of the parts that it speaks of. -/
structure SlotsGood (order : List SlotNo) (slots : Vector Slot 4) (grants : Vector Record 64) (V : Snapshot → Prop) : Prop where
  nodup : order.Nodup
  slots : ∀ k : SlotNo, slotGood (k ∈ order) (isNamed grants k) V slots[k]
  once : ∀ (i j : GrantIdx) (k : SlotNo), grants[i].waitsOn = some k → grants[j].waitsOn = some k → i = j
  phases : ∀ (i : GrantIdx) g, grants[i].grant = some g → phaseGood g

theorem waitsOn_some {r : Record} {k : SlotNo} : r.waitsOn = some k ↔ ∃ g, r.grant = some g ∧ g.waiting = some k :=
  Option.bind_eq_some_iff

theorem waitsOn_of_grant {r : Record} {g : Grant} (h : r.grant = some g) : r.waitsOn = g.waiting := by
  rw [Record.waitsOn, h]
  rfl

theorem waitsOn_none {r : Record} (h : r.grant = none) : r.waitsOn = none := by
  rw [Record.waitsOn, h]
  rfl

theorem isNamed_iff (grants : Vector Record 64) (k : SlotNo) :
    isNamed grants k ↔ ∃ i : GrantIdx, ∃ g, grants[i].grant = some g ∧ g.waiting = some k :=
  exists_congr fun _ => waitsOn_some

/-- The soundness of a slot, as the invariant's parts say it. -/
theorem slotGood_iff {queued named : Prop} {V : Snapshot → Prop} {sl : Slot} :
    slotGood queued named V sl ↔
      (queued ↔ sl.state = .pending) ∧ (sl.status ≠ .none ↔ sl.state = .done)
        ∧ (∀ sn, sl.snapshot = some sn → sl.state = .waiting ∧ V sn)
        ∧ (named → sl.state = .waiting ∧ sl.snapshot = none)
        ∧ (sl.state = .waiting → sl.snapshot.isSome = true ∨ named) := by
  unfold slotGood
  cases sl.state with
  | waiting => cases sl.snapshot <;> simp
  | idle | pending | done =>
    cases sl.snapshot <;> simp
    tauto

theorem slotsSound_iff (s : State) :
    SlotsSound s ↔ SlotsGood s.order s.slots s.grants (snapshotLive s.tags s.queue.length) := by
  constructor
  · rintro ⟨⟨nodup, listed⟩, status, snapshots, ⟨waits, once⟩, cause⟩
    refine ⟨nodup, fun k => ?_, fun i j k hi hj => ?_, fun i g hg => ⟨(waits i g hg).1, (waits i g hg).2.1⟩⟩
    · refine slotGood_iff.mpr ⟨listed k, status k, snapshots k, fun hn => ?_, fun hk => ?_⟩
      · obtain ⟨i, g, hg, hk⟩ := (isNamed_iff _ _).mp hn
        exact (waits i g hg).2.2 k hk
      · rw [isNamed_iff]
        exact cause k hk
    · obtain ⟨g, hg, hgk⟩ := waitsOn_some.mp hi
      obtain ⟨g', hg', hgk'⟩ := waitsOn_some.mp hj
      exact once i j g g' k hg hg' hgk hgk'
  · intro h
    have good := fun k => slotGood_iff.mp (h.slots k)
    refine ⟨⟨h.nodup, fun k => (good k).1⟩, fun k => (good k).2.1, fun k => (good k).2.2.1,
      ⟨fun i g hg => ⟨(h.phases i g hg).1, (h.phases i g hg).2, fun k hk => ?_⟩, ?_⟩, fun k hk => ?_⟩
    · exact (good k).2.2.2.1 ((isNamed_iff _ _).mpr ⟨i, g, hg, hk⟩)
    · intro i j g g' k hg hg' hgk hgk'
      exact h.once i j k (waitsOn_some.mpr ⟨g, hg, hgk⟩) (waitsOn_some.mpr ⟨g', hg', hgk'⟩)
    · rw [← isNamed_iff]
      exact (good k).2.2.2.2 hk

/-! ### One slot -/

section
variable {queued queued' named named' : Prop} {V V' : Snapshot → Prop} {sl sl' : Slot}

/-- A slot keeps what it was when order, grants and the tags and entries of its snapshot do. -/
theorem slotGood_of_same (h : slotGood queued named V sl) (state : sl'.state = sl.state) (status : sl'.status = sl.status)
    (snapshot : sl'.snapshot = sl.snapshot) (hq : queued' ↔ queued) (hn : named' ↔ named) (hv : ∀ sn, V sn → V' sn) :
    slotGood queued' named' V' sl' := by
  unfold slotGood at h ⊢
  rw [state, status, snapshot, hq, hn]
  split at h
  case h_3 =>
    obtain ⟨hlist, hstatus, hw | ⟨sn, hsn, live, hfree⟩⟩ := h
    · exact ⟨hlist, hstatus, .inl hw⟩
    · exact ⟨hlist, hstatus, .inr ⟨sn, hsn, hv sn live, hfree⟩⟩
  all_goals exact h

/-- A slot that the order lists is PENDING. -/
theorem slotGood_queued (h : slotGood queued named V sl) (hq : queued) :
    sl.state = .pending ∧ ¬ named ∧ sl.status = .none ∧ sl.snapshot = none := by
  unfold slotGood at h
  split at h
  case h_2 hp => exact ⟨hp, h.2⟩
  all_goals exact absurd hq h.1

/-- A slot that a grant names is not in the order. -/
theorem slotGood_named (h : slotGood queued named V sl) (hn : named) : ¬ queued := by
  unfold slotGood at h
  split at h
  case h_3 => exact h.1
  all_goals exact absurd hn h.2.1

/-- A slot with a snapshot waits with a FENCE, and with no grant. -/
theorem slotGood_snapshot {sn : Snapshot} (h : slotGood queued named V sl) (hs : sl.snapshot = some sn) :
    sl.state = .waiting ∧ ¬ queued ∧ ¬ named ∧ sl.status = .none ∧ V sn := by
  unfold slotGood at h
  rw [hs] at h
  split at h
  case h_3 hw =>
    obtain ⟨hq, hst, ⟨hx, -⟩ | ⟨sn', hx, live, hn⟩⟩ := h
    · cases hx
    · cases hx
      exact ⟨hw, hq, hn, hst, live⟩
  all_goals simp at h

/-- A slot without a snapshot has nothing to do with the traffic in flight. -/
theorem slotGood_of_unfenced (h : slotGood queued named V sl) (hs : sl.snapshot = none) : slotGood queued named V' sl := by
  unfold slotGood at h ⊢
  rw [hs] at h ⊢
  split at h
  case h_3 =>
    obtain ⟨hq, hst, hw | ⟨sn, hx, -⟩⟩ := h
    · exact ⟨hq, hst, .inl hw⟩
    · cases hx
  all_goals exact h

/-- A slot that has ended, and that neither the order nor a grant speaks of (R137). -/
theorem slotGood_ended {st : Status} (coded : st ≠ .none) (hq : ¬ queued) (hn : ¬ named) :
    slotGood queued named V (endedSlot sl st) :=
  ⟨hq, hn, coded, rfl⟩

theorem slotGood_endedWith {st : Status} {area : Vector Word 32} (coded : st ≠ .none) (hq : ¬ queued) (hn : ¬ named) :
    slotGood queued named V (endedWith sl st area) :=
  ⟨hq, hn, coded, rfl⟩

/-- A slot that waits with a FENCE. -/
theorem slotGood_fenced {sn : Snapshot} (hstate : sl.state = .waiting) (hstatus : sl.status = .none) (hs : sl.snapshot = some sn)
    (live : V sn) (hq : ¬ queued) (hn : ¬ named) : slotGood queued named V sl := by
  unfold slotGood
  rw [hstate]
  exact ⟨hq, hstatus, .inr ⟨sn, hs, live, hn⟩⟩

end

/-! ### Snapshots and departures -/

/-- What a departure does to a slot's soundness for its snapshot: the order and the grants keep their part. -/
def departs (V V' : Snapshot → Prop) (after : Slot → Slot) : Prop :=
  ∀ {queued named : Prop} {sl : Slot}, slotGood queued named V sl → slotGood queued named V' (after sl)

theorem departs_id {V V' : Snapshot → Prop} (h : ∀ sn, V sn → V' sn) : departs V V' fun sl => sl :=
  fun hs => slotGood_of_same hs rfl rfl rfl Iff.rfl Iff.rfl h

/-- A snapshot that loses members ends its FENCE or stays (R127). -/
theorem slotGood_afterDeparture {queued named : Prop} {V V' : Snapshot → Prop} {sl : Slot} {sn sn' : Snapshot}
    (h : slotGood queued named V sl) (hs : sl.snapshot = some sn) (live : sn'.isEmpty = false → V' sn') :
    slotGood queued named V' (slotAfterDeparture sl sn') := by
  obtain ⟨hstate, hq, hn, hstatus, -⟩ := slotGood_snapshot h hs
  unfold slotAfterDeparture
  split
  · exact slotGood_ended (by simp) hq hn
  · rename_i members
    refine slotGood_fenced hstate hstatus rfl (live ?_) hq hn
    unfold Snapshot.isEmpty
    simpa using members

/-- The tag that retires leaves every snapshot (R126). -/
theorem departs_tag (tags : Vector TagEntry 32) (len : Nat) (n : TagNo) (e : TagEntry) :
    departs (snapshotLive tags len) (snapshotLive (tags.set n e) len) (slotAfterTag n) := by
  have other : ∀ t : TagNo, t ≠ n → (tags.set n e)[t] = tags[t] := by
    intro t ht
    have : ¬ n.val = t.val := fun hv => ht (Fin.ext hv.symm)
    simp [this]
  intro queued named sl h
  unfold slotAfterTag
  split
  · rename_i hs
    exact slotGood_of_unfenced h hs
  · rename_i sn hs
    obtain ⟨hstate, hq, hn, hstatus, nonempty, members, entries⟩ := slotGood_snapshot h hs
    split
    · refine slotGood_afterDeparture h hs fun hne => ⟨hne, fun t ht => ?_, entries⟩
      have htn : t ≠ n := by
        rintro rfl
        simp at ht
      rw [other t htn]
      refine members t ?_
      simp only [BitVec.getLsbD_and, Bool.and_eq_true] at ht
      exact ht.1
    · rename_i outside
      refine slotGood_fenced hstate hstatus hs ⟨nonempty, fun t ht => ?_, entries⟩ hq hn
      rw [other t (by rintro rfl; exact outside ht)]
      exact members t ht

/-- The head entry leaves every snapshot, and those behind it move up one place (R126). -/
theorem departs_entry (tags : Vector TagEntry 32) (len : Nat) :
    departs (snapshotLive tags (len + 1)) (snapshotLive tags len) slotAfterEntry := by
  intro queued named sl h
  unfold slotAfterEntry
  split
  · rename_i hs
    exact slotGood_of_unfenced h hs
  · rename_i sn hs
    obtain ⟨hstate, hq, hn, hstatus, nonempty, members, entries⟩ := slotGood_snapshot h hs
    have moved : ∀ m : Nat, (sn.entries >>> 1).getLsbD m = true → m < len := by
      intro m hm
      rw [BitVec.getLsbD_ushiftRight] at hm
      have := entries _ hm
      omega
    split
    · exact slotGood_afterDeparture h hs fun hne => ⟨hne, members, moved⟩
    · rename_i first
      refine slotGood_fenced hstate hstatus rfl ⟨?_, members, moved⟩ hq hn
      have kept : sn.entries >>> 1 = 0#16 → sn.entries = 0#16 := by
        intro hz
        refine BitVec.eq_of_getLsbD_eq fun m hm => ?_
        rw [BitVec.getLsbD_zero]
        cases m with
        | zero => simpa using first
        | succ m =>
          have := congrArg (fun w : BitVec 16 => w.getLsbD m) hz
          rwa [BitVec.getLsbD_ushiftRight, BitVec.getLsbD_zero, Nat.add_comm] at this
      unfold Snapshot.isEmpty at nonempty ⊢
      simp only [Bool.and_eq_false_iff, beq_eq_false_iff_ne] at nonempty ⊢
      exact nonempty.imp_right fun hne hz => hne (kept hz)

/-! ### The grants that wait -/

theorem records_set_get (grants : Vector Record 64) (i j : GrantIdx) (r : Record) :
    (grants.set i r)[j] = if i = j then r else grants[j] := by
  simp [Vector.getElem_set, Fin.ext_iff]

/-- After the change of one record a slot is named by it, or by the grant that named it before. -/
theorem isNamed_set {grants : Vector Record 64} {i : GrantIdx} {r : Record} {k : SlotNo}
    (once : ∀ (i j : GrantIdx) (k : SlotNo), grants[i].waitsOn = some k → grants[j].waitsOn = some k → i = j) :
    isNamed (grants.set i r) k ↔ r.waitsOn = some k ∨ isNamed grants k ∧ grants[i].waitsOn ≠ some k := by
  constructor
  · rintro ⟨j, hj⟩
    rw [records_set_get] at hj
    split at hj
    · exact .inl hj
    · rename_i hij
      exact .inr ⟨⟨j, hj⟩, fun hi => hij (once i j k hi hj)⟩
  · rintro (hr | ⟨⟨j, hj⟩, hi⟩)
    · exact ⟨i, by rw [records_set_get, if_pos rfl]; exact hr⟩
    · refine ⟨j, ?_⟩
      rw [records_set_get, if_neg]
      · exact hj
      · rintro rfl
        exact hi hj

/-- A record may take a wait of its own or a slot that no grant names, and its grant keeps its phase in step with it. -/
theorem once_set {grants : Vector Record 64} {i : GrantIdx} {r : Record}
    (once : ∀ (i j : GrantIdx) (k : SlotNo), grants[i].waitsOn = some k → grants[j].waitsOn = some k → i = j)
    (new : ∀ k, r.waitsOn = some k → grants[i].waitsOn = some k ∨ ¬ isNamed grants k) (a b : GrantIdx) (k : SlotNo)
    (ha : (grants.set i r)[a].waitsOn = some k) (hb : (grants.set i r)[b].waitsOn = some k) : a = b := by
  have other : ∀ c : GrantIdx, r.waitsOn = some k → grants[c].waitsOn = some k → i = c := fun c hr hc =>
    (new k hr).elim (fun hi => once i c k hi hc) fun hn => absurd ⟨c, hc⟩ hn
  rw [records_set_get] at ha hb
  split at ha <;> split at hb <;> rename_i h1 h2
  · exact h1.symm.trans h2
  · rw [← h1, other b ha hb]
  · rw [← h2, other a hb ha]
  · exact once a b k ha hb

theorem phases_set {grants : Vector Record 64} {i : GrantIdx} {r : Record}
    (phases : ∀ (i : GrantIdx) g, grants[i].grant = some g → phaseGood g) (own : ∀ g, r.grant = some g → phaseGood g)
    (j : GrantIdx) (g : Grant) (hg : (grants.set i r)[j].grant = some g) : phaseGood g := by
  rw [records_set_get] at hg
  split at hg
  · exact own g hg
  · exact phases j g hg

/-! ### Changes of the whole -/

section
variable {order : List SlotNo} {slots : Vector Slot 4} {grants : Vector Record 64} {V V' : Snapshot → Prop}

/-- With no grant, and every slot as at power-on, nothing waits. -/
theorem slotsGood_quiet (hs : ∀ k : SlotNo, slots[k] = Slot.initial) (hg : ∀ i : GrantIdx, grants[i].grant = none) :
    SlotsGood [] slots grants V where
  nodup := .nil
  slots k := by
    rw [hs k]
    exact ⟨by simp, fun ⟨i, hi⟩ => absurd ((waitsOn_none (hg i)).symm.trans hi) (by simp), rfl, rfl⟩
  once i j k hi := absurd ((waitsOn_none (hg i)).symm.trans hi) (by simp)
  phases i g hi := absurd ((hg i).symm.trans hi) (by simp)

theorem slotsGood_mono (h : SlotsGood order slots grants V) (hv : ∀ sn, V sn → V' sn) : SlotsGood order slots grants V' :=
  ⟨h.nodup, fun k => slotGood_of_same (h.slots k) rfl rfl rfl Iff.rfl Iff.rfl hv, h.once, h.phases⟩

/-- A record whose grant keeps the slot that it waits with, or has none before and after. -/
theorem slotsGood_setRecord {i : GrantIdx} {r : Record} (h : SlotsGood order slots grants V)
    (waits : r.waitsOn = grants[i].waitsOn) (own : ∀ g, r.grant = some g → phaseGood g) :
    SlotsGood order slots (grants.set i r) V := by
  refine ⟨h.nodup, fun k => ?_, once_set h.once fun k hk => .inl (waits ▸ hk), phases_set h.phases own⟩
  refine slotGood_of_same (h.slots k) rfl rfl rfl Iff.rfl ?_ fun _ hv => hv
  rw [isNamed_set h.once, waits]
  constructor
  · rintro (hk | ⟨hn, -⟩)
    · exact ⟨i, hk⟩
    · exact hn
  · intro hn
    by_cases hk : grants[i].waitsOn = some k
    · exact .inl hk
    · exact .inr ⟨hn, hk⟩

/-- Grants that each keep the slot that they wait with. -/
theorem slotsGood_mapRecords {grants' : Vector Record 64} (h : SlotsGood order slots grants V)
    (waits : ∀ i : GrantIdx, grants'[i].waitsOn = grants[i].waitsOn)
    (own : ∀ (i : GrantIdx) g, grants'[i].grant = some g → phaseGood g) : SlotsGood order slots grants' V where
  nodup := h.nodup
  slots k := slotGood_of_same (h.slots k) rfl rfl rfl Iff.rfl (exists_congr fun i => by rw [waits i]) fun _ hv => hv
  once i j k hi hj := h.once i j k (waits i ▸ hi) (waits j ▸ hj)
  phases := own

/-- A record lets go of its waiting slot, which ends, or keeps it; the other slots may lose members of their snapshots (R49,
R126, R127). -/
theorem slotsGood_reported {i : GrantIdx} {r : Record} {w : Option SlotNo} {st : Status} {after : Slot → Slot}
    {slots' : Vector Slot 4} (h : SlotsGood order slots grants V) (coded : st ≠ .none)
    (waits : ∀ k, r.waitsOn = some k ↔ grants[i].waitsOn = some k ∧ w ≠ some k)
    (own : ∀ k, w = some k → grants[i].waitsOn = some k) (phase : ∀ g, r.grant = some g → phaseGood g)
    (left : departs V V' after)
    (ends : ∀ k : SlotNo, slots'[k] = if w = some k then endedSlot slots[k] st else after slots[k]) :
    SlotsGood order slots' (grants.set i r) V' := by
  refine ⟨h.nodup, fun k => ?_, once_set h.once fun k hk => .inl ((waits k).mp hk).1, phases_set h.phases phase⟩
  have named : isNamed (grants.set i r) k ↔ isNamed grants k ∧ w ≠ some k := by
    rw [isNamed_set h.once, waits]
    constructor
    · rintro (⟨hi, hw⟩ | ⟨hn, hi⟩)
      · exact ⟨⟨i, hi⟩, hw⟩
      · exact ⟨hn, fun hw => hi (own k hw)⟩
    · rintro ⟨hn, hw⟩
      by_cases hi : grants[i].waitsOn = some k
      · exact .inl ⟨hi, hw⟩
      · exact .inr ⟨hn, hi⟩
  rw [ends k]
  split
  · rename_i hw
    exact slotGood_ended coded (slotGood_named (h.slots k) ⟨i, own k hw⟩) fun hn => (named.mp hn).2 hw
  · rename_i hw
    refine slotGood_of_same (left (h.slots k)) rfl rfl rfl Iff.rfl ?_ fun _ hv => hv
    rw [named]
    exact and_iff_left hw

/-- The slot at the front leaves the order and is as its new state asks; the others keep what they were (R141). -/
theorem slotsGood_front {k : SlotNo} {rest : List SlotNo} {sl : Slot} {grants' : Vector Record 64}
    (h : SlotsGood (k :: rest) slots grants V) (named : ∀ j, j ≠ k → (isNamed grants' j ↔ isNamed grants j))
    (once : ∀ (i j : GrantIdx) (k : SlotNo), grants'[i].waitsOn = some k → grants'[j].waitsOn = some k → i = j)
    (phases : ∀ (i : GrantIdx) g, grants'[i].grant = some g → phaseGood g)
    (new : k ∉ rest → slotGood (k ∈ rest) (isNamed grants' k) V sl) : SlotsGood rest (slots.set k sl) grants' V := by
  obtain ⟨fresh, nodup⟩ := List.nodup_cons.mp h.nodup
  refine ⟨nodup, fun j => ?_, once, phases⟩
  have hget : (slots.set k sl)[j] = if k = j then sl else slots[j] := by simp [Vector.getElem_set, Fin.ext_iff]
  rw [hget]
  split
  · rename_i hkj
    subst hkj
    exact new fresh
  · rename_i hkj
    have hne : j ≠ k := fun e => hkj e.symm
    exact slotGood_of_same (h.slots j) rfl rfl rfl (by simp [hne]) (named j hne) fun _ hv => hv

/-- What the slot at the front is, as its command begins. -/
theorem slotsGood_pending {k : SlotNo} {rest : List SlotNo} (h : SlotsGood (k :: rest) slots grants V) :
    slots[k].state = .pending ∧ ¬ isNamed grants k ∧ slots[k].status = .none ∧ slots[k].snapshot = none :=
  slotGood_queued (h.slots k) (List.mem_cons_self ..)

theorem slotsGood_ended {k : SlotNo} {rest : List SlotNo} {sl : Slot} {st : Status} {area : Vector Word 32}
    (h : SlotsGood (k :: rest) slots grants V) (coded : st ≠ .none) :
    SlotsGood rest (slots.set k (endedWith sl st area)) grants V :=
  slotsGood_front h (fun _ _ => Iff.rfl) h.once h.phases fun fresh =>
    slotGood_endedWith coded fresh (slotsGood_pending h).2.1

theorem slotsGood_fenced {k : SlotNo} {rest : List SlotNo} {area : Vector Word 32} {sn : Snapshot}
    (h : SlotsGood (k :: rest) slots grants V) (live : V sn) :
    SlotsGood rest (slots.set k { waitingWith slots[k] area with snapshot := some sn }) grants V := by
  obtain ⟨-, free, unended, -⟩ := slotsGood_pending h
  exact slotsGood_front h (fun _ _ => Iff.rfl) h.once h.phases fun fresh =>
    slotGood_fenced rfl unended rfl live fresh free

/-- The slot at the front waits with a grant that waited with none (R41, R46, R47). -/
theorem slotsGood_waits {k : SlotNo} {rest : List SlotNo} {area : Vector Word 32} {i : GrantIdx} {r : Record}
    (h : SlotsGood (k :: rest) slots grants V) (unwaited : grants[i].waitsOn = none) (waits : r.waitsOn = some k)
    (phase : ∀ g, r.grant = some g → phaseGood g) :
    SlotsGood rest (slots.set k (waitingWith slots[k] area)) (grants.set i r) V := by
  obtain ⟨-, free, unended, unfenced⟩ := slotsGood_pending h
  refine slotsGood_front h (fun j hj => ?_) (once_set h.once fun j hj => .inr ?_) (phases_set h.phases phase) fun fresh => ?_
  · rw [isNamed_set h.once, waits, unwaited]
    simp [hj.symm]
  · cases waits.symm.trans hj
    exact free
  · exact ⟨fresh, unended, .inl ⟨unfenced, (isNamed_set h.once).mpr (.inl waits)⟩⟩

end

end Sys2Proof.Machine
end

section
/-! PROOF. The invariant of slots and waits (R6, R125, R126, R134, R137, R141), change by change. -/

namespace Sys2Proof.Machine

open Sys2Proof.Safety

/-! ### Records -/

/-- A grant that is neither OPEN nor DRAINING may wait or not. -/
theorem phaseGood_closing {g : Grant} {c : CloseCause} {p : Option PrevGeneration} (h : g.phase = .closing c p) : phaseGood g :=
  ⟨fun ho => absurd (h.symm.trans ho) (by simp), fun _ hd => absurd (h.symm.trans hd) (by simp)⟩

theorem phaseGood_of_isClosing {g : Grant} (h : g.phase.isClosing = true) : phaseGood g := by
  cases hp : g.phase with
  | opened | draining => simp [hp, Phase.isClosing] at h
  | closing c p => exact phaseGood_closing hp

theorem phaseGood_of_same {g g' : Grant} (h : phaseGood g) (phase : g'.phase = g.phase) (waits : g'.waiting = g.waiting) :
    phaseGood g' := by
  unfold phaseGood
  rwa [phase, waits]

/-- The fall of a count ends a wait or leaves it (R31, R49). -/
structure LetsGo (r r' : Record) (w : Option SlotNo) : Prop where
  waits : ∀ k, r'.waitsOn = some k ↔ r.waitsOn = some k ∧ w ≠ some k
  own : ∀ k, w = some k → r.waitsOn = some k
  phase : ∀ g, r'.grant = some g → phaseGood g

theorem letsGo_keeping {r r' : Record} (waits : r'.waitsOn = r.waitsOn) (phase : ∀ g, r'.grant = some g → phaseGood g) :
    LetsGo r r' none :=
  ⟨fun k => by simp [waits], fun k hk => by simp at hk, phase⟩

theorem letsGo_all {r r' : Record} {g : Grant} (hg : r.grant = some g) (waits : r'.waitsOn = none)
    (phase : ∀ g, r'.grant = some g → phaseGood g) : LetsGo r r' g.waiting where
  waits k := by simp [waits, waitsOn_of_grant hg]
  own k hk := (waitsOn_of_grant hg).trans hk
  phase := phase

theorem letsGo_freed {r : Record} {g : Grant} (hg : r.grant = some g) : LetsGo r (freedRecord r) g.waiting :=
  letsGo_all hg rfl fun g' h => by simp [freedRecord] at h

/-- A grant that keeps its slot, and its phase in step with it. -/
theorem letsGo_kept {r : Record} {g g' : Grant} (hg : r.grant = some g) (waits : g'.waiting = g.waiting) (phase : phaseGood g') :
    LetsGo r { r with grant := some g' } none :=
  letsGo_keeping (waits.trans (waitsOn_of_grant hg).symm) fun _ h => Option.some.inj h ▸ phase

theorem fallOutcome_letsGo {r : Record} (n : GenNo) (h : ∀ g, r.grant = some g → phaseGood g) :
    LetsGo r (fallOutcome r n).1 (fallOutcome r n).2 := by
  unfold fallOutcome
  split
  · exact letsGo_keeping rfl h
  · rename_i g hg
    have good := h g hg
    split
    · split
      · rename_i hp
        split
        · exact letsGo_freed hg
        · exact letsGo_kept hg rfl (phaseGood_of_same good rfl rfl)
      · exact letsGo_kept hg rfl (phaseGood_of_same good rfl rfl)
    · split
      · rename_i p hp
        split
        · exact letsGo_keeping rfl h
        · split
          · exact letsGo_all hg rfl fun g' h' => Option.some.inj h' ▸ ⟨fun _ => rfl, fun q hq => by simp at hq⟩
          · exact letsGo_kept hg rfl ⟨fun ho => by simp at ho, fun _ _ => good.2 p hp⟩
      · rename_i c p hp
        split
        · exact letsGo_keeping rfl h
        · split
          · split
            · exact letsGo_freed hg
            · exact letsGo_kept hg rfl (phaseGood_closing rfl)
          · exact letsGo_kept hg rfl (phaseGood_closing rfl)
      · exact letsGo_keeping rfl h

theorem recordRun_waitsOn (r : Record) : (recordRun r).waitsOn = r.waitsOn := by
  unfold recordRun
  split
  · rfl
  · rename_i g hg
    exact (waitsOn_of_grant hg).symm

theorem recordRun_phaseGood {r : Record} (h : ∀ g, r.grant = some g → phaseGood g) (g : Grant)
    (hg : (recordRun r).grant = some g) : phaseGood g := by
  unfold recordRun at hg
  split at hg
  · exact h g hg
  · rename_i g' hg'
    cases hg
    exact phaseGood_of_same (h g' hg') rfl rfl

/-! ### Tags -/

theorem snapshotLive_of_waiting {tags tags' : Vector TagEntry 32} {n m : Nat} {sn : Snapshot} (h : snapshotLive tags n sn)
    (ht : ∀ t : TagNo, (∃ r i u, tags[t] = .waiting r i u) → ∃ r i u, tags'[t] = .waiting r i u) (hn : n ≤ m) :
    snapshotLive tags' m sn :=
  ⟨h.1, fun t hs => ht t (h.2.1 t hs), fun e he => lt_of_lt_of_le (h.2.2 e he) hn⟩

theorem waiting_letGo {chosen : PortNo → Bool} {tags : Vector TagEntry 32} (t : TagNo)
    (h : ∃ r i u, tags[t] = .waiting r i u) :
    ∃ r i u, (Vector.ofFn fun n : TagNo => letGo chosen tags[n])[t] = .waiting r i u := by
  obtain ⟨r, i, u, ht⟩ := h
  have hget : (Vector.ofFn fun n : TagNo => letGo chosen tags[n])[t] = letGo chosen tags[t] := by simp
  rw [hget, ht]
  exact ⟨_, _, _, rfl⟩

theorem waiting_run {tags : Vector TagEntry 32} (t : TagNo) (h : ∃ r i u, tags[t] = .waiting r i u) :
    ∃ r i u, (Vector.ofFn fun n : TagNo => tagRun tags[n])[t] = .waiting r i u := by
  obtain ⟨r, i, u, ht⟩ := h
  have hget : (Vector.ofFn fun n : TagNo => tagRun tags[n])[t] = tagRun tags[t] := by simp
  rw [hget, ht]
  exact ⟨_, _, _, rfl⟩

theorem tags_set_get (tags : Vector TagEntry 32) (n t : TagNo) (e : TagEntry) :
    (tags.set n e)[t] = if n = t then e else tags[t] := by
  simp [Vector.getElem_set, Fin.ext_iff]

/-- A tag that becomes WAITING, or was not. -/
theorem waiting_set {tags : Vector TagEntry 32} {n : TagNo} {e : TagEntry}
    (h : (∃ r i u, e = .waiting r i u) ∨ ∀ r i u, tags[n] ≠ .waiting r i u) (t : TagNo)
    (ht : ∃ r i u, tags[t] = .waiting r i u) : ∃ r i u, (tags.set n e)[t] = .waiting r i u := by
  rw [tags_set_get]
  split
  · rename_i hnt
    subst hnt
    obtain he | hn := h
    · exact he
    · obtain ⟨r, i, u, hw⟩ := ht
      exact absurd hw (hn r i u)
  · exact ht

/-! ### Slots -/

theorem slots_set_get (slots : Vector Slot 4) (k j : SlotNo) (sl : Slot) :
    (slots.set k sl)[j] = if k = j then sl else slots[j] := by
  simp [Vector.getElem_set, Fin.ext_iff]

theorem slotsReported_get (slots : Vector Slot 4) (w : Option SlotNo) (st : Status) (k : SlotNo) :
    (slotsReported slots w st)[k] = if w = some k then endedSlot slots[k] st else slots[k] := by
  unfold slotsReported
  split
  · rename_i j
    rw [slots_set_get]
    by_cases h : j = k
    · subst h
      simp
    · simp [h]
  · simp

section
variable {order : List SlotNo} {slots : Vector Slot 4} {grants : Vector Record 64} {V V' : Snapshot → Prop}

/-- A grant lets go of its waiting slot, which ends with a status (R49, R56). -/
theorem slotsGood_slotsReported {i : GrantIdx} {r : Record} {w : Option SlotNo} {st : Status}
    (h : SlotsGood order slots grants V) (coded : st ≠ .none) (hr : LetsGo grants[i] r w) :
    SlotsGood order (slotsReported slots w st) (grants.set i r) V :=
  slotsGood_reported h coded hr.waits hr.own hr.phase (departs_id fun _ hv => hv) (slotsReported_get slots w st)

/-- A slot that keeps its state, status and snapshot. -/
theorem slotsGood_setSlot {k : SlotNo} {sl : Slot} (h : SlotsGood order slots grants V) (state : sl.state = slots[k].state)
    (status : sl.status = slots[k].status) (snapshot : sl.snapshot = slots[k].snapshot) :
    SlotsGood order (slots.set k sl) grants V := by
  refine ⟨h.nodup, fun j => ?_, h.once, h.phases⟩
  rw [slots_set_get]
  split
  · rename_i e
    subst e
    exact slotGood_of_same (h.slots k) state status snapshot Iff.rfl Iff.rfl fun _ hv => hv
  · exact h.slots j

/-- A free slot takes a submission, and joins the order at its end (R138). -/
theorem slotsGood_submitted {k : SlotNo} {sl : Slot} (h : SlotsGood order slots grants V) (free : ¬ Safety.busy slots[k])
    (state : sl.state = .pending) (status : sl.status = .none) (snapshot : sl.snapshot = slots[k].snapshot) :
    SlotsGood (order ++ [k]) (slots.set k sl) grants V := by
  have own : k ∉ order ∧ ¬ isNamed grants k ∧ slots[k].snapshot = none := by
    have good := slotGood_iff.mp (h.slots k)
    obtain ⟨hq, -, hs, hn, -⟩ := good
    refine ⟨fun hk => free (.inl (hq.mp hk)), fun hk => free (.inr (hn hk).1), ?_⟩
    cases hsn : slots[k].snapshot with
    | none => rfl
    | some sn => exact absurd (.inr (hs sn hsn).1) free
  obtain ⟨fresh, unnamed, unfenced⟩ := own
  refine ⟨List.nodup_append.mpr ⟨h.nodup, by simp, fun a ha b hb hab => ?_⟩, fun j => ?_, h.once, h.phases⟩
  · rw [hab, List.mem_singleton.mp hb] at ha
    exact fresh ha
  · rw [slots_set_get]
    split
    · rename_i e
      subst e
      unfold slotGood
      rw [state]
      exact ⟨by simp, unnamed, status, snapshot.trans unfenced⟩
    · rename_i e
      exact slotGood_of_same (h.slots j) rfl rfl rfl (by simp [Ne.symm e]) Iff.rfl fun _ hv => hv

/-- The FENCE of a slot is cancelled (R130, R140). -/
theorem slotsGood_cancelled {k : SlotNo} {st : Status} (h : SlotsGood order slots grants V) (coded : st ≠ .none)
    (waits : waitsWithFence slots[k]) : SlotsGood order (slots.set k (endedSlot slots[k] st)) grants V := by
  refine ⟨h.nodup, fun j => ?_, h.once, h.phases⟩
  rw [slots_set_get]
  split
  · rename_i e
    subst e
    obtain ⟨sn, hsn⟩ := Option.ne_none_iff_exists'.mp waits.2
    obtain ⟨-, hq, hn, -⟩ := slotGood_snapshot (h.slots k) hsn
    exact slotGood_ended coded hq hn
  · exact h.slots j

end

/-! ### The changes -/

theorem slotsSound_change {s x : State} (hc : Change s x) (h : SlotsSound s) : SlotsSound x := by
  rw [slotsSound_iff] at h ⊢
  cases hc with
  | powerOn => exact slotsGood_quiet hostQuiet_reset.slots hostQuiet_reset.grants
  | linkDown => exact slotsGood_quiet (hostQuiet_leaveUp s).slots (hostQuiet_leaveUp s).grants
  | tornDown => exact slotsGood_quiet (fun k => by simp [State.teardown]) s.teardown_grant
  | lrstAsserted => exact slotsGood_mono h fun _ hv => snapshotLive_of_waiting hv waiting_letGo le_rfl
  | readIssued head limit free formed grant =>
    refine slotsGood_setRecord (slotsGood_mono h fun _ hv => snapshotLive_of_waiting hv (waiting_set (.inl ⟨_, _, _, rfl⟩)) le_rfl)
      (waitsOn_of_grant grant).symm fun g hg => ?_
    cases hg
    exact phaseGood_of_same (h.phases _ _ grant) rfl rfl
  | writeAccepted head grant =>
    refine slotsGood_setRecord (slotsGood_mono h fun _ hv => snapshotLive_of_waiting hv (fun _ ht => ht) (by simp))
      (waitsOn_of_grant grant).symm fun g hg => ?_
    cases hg
    exact phaseGood_of_same (h.phases _ _ grant) rfl rfl
  | @entryLeft e rest up front =>
    obtain ⟨waits, own, phase⟩ := fallOutcome_letsGo e.gen (h.phases e.index)
    have hlen : s.queue.length = rest.length + 1 := by rw [front]; rfl
    rw [hlen] at h
    exact slotsGood_reported (st := .ok) h (by simp) waits own phase (departs_entry _ _) fun k => by simp [slotsAfterDeparture]
  | bytesTaken tag =>
    exact slotsGood_mono h fun _ hv => snapshotLive_of_waiting hv (waiting_set (.inl ⟨_, _, _, rfl⟩)) le_rfl
  | @readRetired n r i u res next port beats c tag =>
    obtain ⟨waits, own, phase⟩ := fallOutcome_letsGo r.gen (h.phases r.index)
    exact slotsGood_reported (st := .ok) h (by simp) waits own phase (departs_tag _ _ _ _) fun k => by
      simp [retiredState, slotsAfterDeparture]
  | tagFreed tag =>
    exact slotsGood_mono h fun _ hv => snapshotLive_of_waiting hv (waiting_set (.inr (by simp [tag]))) le_rfl
  | leaseExpired grant opened due =>
    refine slotsGood_slotsReported h (by simp) (letsGo_all grant ?_ fun g' hg' => ?_)
    · split <;> rfl
    · split at hg'
      · cases hg'
      · cases hg'
        exact phaseGood_closing rfl
  | ticked =>
    refine slotsGood_mapRecords (slotsGood_mono h fun _ hv => snapshotLive_of_waiting hv waiting_run le_rfl) (fun i => ?_)
      fun i g hg => ?_
    · have hget : (Vector.ofFn fun i : GrantIdx => recordRun s.grants[i])[i] = recordRun s.grants[i] := by simp
      rw [hget]
      exact recordRun_waitsOn _
    · have hget : (Vector.ofFn fun i : GrantIdx => recordRun s.grants[i])[i] = recordRun s.grants[i] := by simp
      rw [hget] at hg
      exact recordRun_phaseGood (h.phases i) g hg
  | slotEnded front coded =>
    rw [front] at h
    exact slotsGood_ended h coded
  | @grantOpened k rest area i l front free =>
    rw [front] at h
    refine slotsGood_setRecord (slotsGood_ended h (by simp)) (waitsOn_none free).symm fun g hg => ?_
    cases hg
    exact ⟨fun _ => rfl, fun p hp => by simp [grantOpened] at hp⟩
  | grantAltered front grant opened altered phase waits =>
    rw [front] at h
    refine slotsGood_setRecord (slotsGood_ended h (by simp)) (waits.trans (waitsOn_of_grant grant).symm) fun g hg => ?_
    cases hg
    exact phaseGood_of_same (h.phases _ _ grant) phase waits
  | grantDrained front grant opened altered phase waits =>
    rw [front] at h
    refine slotsGood_waits h ((waitsOn_of_grant grant).trans ((h.phases _ _ grant).1 opened)) waits fun g hg => ?_
    cases hg
    exact ⟨fun ho => absurd (phase.symm.trans ho) (by simp), fun _ _ => by rw [waits]; rfl⟩
  | closeFreed front grant =>
    rw [front] at h
    exact slotsGood_ended (slotsGood_slotsReported h (by simp) (letsGo_freed grant)) (by simp)
  | @closeWaits k rest area i g front grant opened =>
    rw [front] at h
    have overtaken := slotsGood_slotsReported (st := .overtaken) h (by simp)
      (letsGo_all (r' := { s.grants[i] with grant := some { g with
        phase := .closing .command (previous g), lease := leaseStopped g.lease, waiting := none } }) grant rfl
        fun g' hg' => Option.some.inj hg' ▸ phaseGood_closing rfl)
    have waiting := slotsGood_waits (area := area) (i := i) (r := { s.grants[i] with grant := some { g with
        phase := .closing .command (previous g), lease := leaseStopped g.lease, waiting := some k } }) overtaken
      (by rw [records_set_get, if_pos rfl]; rfl) rfl fun g' hg' => Option.some.inj hg' ▸ phaseGood_closing rfl
    rwa [Vector.set_set] at waiting
  | closeAdopted front grant closing unwaited =>
    rw [front] at h
    refine slotsGood_waits h ((waitsOn_of_grant grant).trans unwaited) rfl fun g hg => ?_
    cases hg
    exact phaseGood_of_isClosing closing
  | @fenceWaits k rest area set sn front members nonempty =>
    rw [front] at h
    refine slotsGood_fenced h ⟨nonempty, fun t ht => ?_, fun m hm => ?_⟩
    · obtain ⟨r, i, u, hw, -⟩ := (members.1 t).mp ht
      exact ⟨r, i, u, hw⟩
    · obtain ⟨-, e, he, -⟩ := (members.2 m).mp hm
      exact (List.getElem?_eq_some_iff.mp he).1
  | requesterSet front | requesterResumed front | timingSet front =>
    rw [front] at h
    exact slotsGood_ended h (by simp)
  | requesterReset front =>
    rw [front] at h
    exact slotsGood_mono (slotsGood_ended h (by simp)) fun _ hv => snapshotLive_of_waiting hv waiting_letGo le_rfl
  | submitted up free => exact slotsGood_submitted h free rfl rfl rfl
  | cancelled up waits => exact slotsGood_cancelled h (by simp) waits
  | collided | argumentWritten => exact slotsGood_setSlot h rfl rfl rfl
  | _ => exact h

/-- Settles O56: a slot leaves the order, a grant or a snapshot in the change in which it ends or waits. -/
theorem stepKeepsSlotsSound : Obligations.StepKeepsSlotsSound :=
  fun _ _ => step_keeps (P := SlotsSound) (fun _ h => h)
    (fun s h => by rw [slotsSound_iff] at h ⊢; simpa using h) slotsSound_change

end Sys2Proof.Machine
end

section
/-! PROOF. Sequences, leases and access counters (R7, R19, R53, R54): what a change makes of one record of the grant table, said
once, and the three invariants of it. -/

namespace Sys2Proof.Machine

open Sys2Proof.Safety

/-- What a change can make of one record of the grant table. -/
inductive RecordChange (r : Record) : Record → Prop
  | same : RecordChange r r
  | reset : RecordChange r Record.initial
  | tornDown : RecordChange r r.tornDown
  | fell (n : GenNo) : RecordChange r (fallOutcome r n).1
  | ran : RecordChange r (recordRun r)
  | freed : RecordChange r (freedRecord r)
  | counted {g : Grant} (k : AccessKind) (grant : r.grant = some g) (opened : g.phase.isClosing = false) :
      RecordChange r { r with grant := some (g.counted k) }
  | opened {sl : Slot} {l : Lease} (lease : suppliedLease sl l) : RecordChange r { r with grant := some (grantOpened sl l) }
  | altered {g g' : Grant} (grant : r.grant = some g) (altered : Altered g g') (running : g'.phase.cause = none) :
      RecordChange r { r with grant := some g' }
  | expired {g : Grant} {kind : TimedKind} {p : BitVec 16} {prev : Option PrevGeneration} (grant : r.grant = some g)
      (due : g.lease = .timed kind p 0) :
      RecordChange r { r with grant := some { g with phase := .closing .expired prev, lease := .timed kind p 0, waiting := none } }
  | closed {g : Grant} {prev : Option PrevGeneration} {w : Option SlotNo} (grant : r.grant = some g) :
      RecordChange r { r with grant := some { g with
        phase := .closing .command prev, lease := leaseStopped g.lease, waiting := w } }
  | adopted {g : Grant} {w : Option SlotNo} (grant : r.grant = some g) :
      RecordChange r { r with grant := some { g with waiting := w } }

theorem cause_of_isClosing {ph : Phase} (h : ph.isClosing = false) : ph.cause = none := by
  cases ph with
  | opened | draining => rfl
  | closing => cases h

theorem records_set_change {grants : Vector Record 64} {i : GrantIdx} {r : Record} (h : RecordChange grants[i] r)
    (j : GrantIdx) : RecordChange grants[j] (grants.set i r)[j] := by
  rw [records_set_get]
  split
  · rename_i e
    subst e
    exact h
  · exact .same

theorem records_change {s x : State} (hc : Change s x) (i : GrantIdx) : RecordChange s.grants[i] x.grants[i] := by
  cases hc with
  | powerOn =>
    have hget : State.reset.grants[i] = Record.initial := by simp [State.reset]
    change RecordChange _ State.reset.grants[i]
    rw [hget]
    exact .reset
  | linkDown | tornDown =>
    have hget : s.teardown.grants[i] = s.grants[i].tornDown := by simp [State.teardown]
    change RecordChange _ s.teardown.grants[i]
    rw [hget]
    exact .tornDown
  | readIssued head limit free formed grant opened | writeAccepted head grant opened =>
    exact records_set_change (.counted _ grant opened) i
  | entryLeft | readRetired => exact records_set_change (.fell _) i
  | leaseExpired grant opened due =>
    refine records_set_change ?_ i
    split
    · exact .freed
    · exact .expired grant due
  | ticked =>
    have hget : (Vector.ofFn fun i : GrantIdx => recordRun s.grants[i])[i] = recordRun s.grants[i] := by simp
    rw [hget]
    exact .ran
  | grantOpened front free lease => exact records_set_change (.opened lease) i
  | grantAltered front grant opened altered phase =>
    exact records_set_change (.altered grant altered (phase ▸ cause_of_isClosing opened)) i
  | grantDrained front grant opened altered phase =>
    exact records_set_change (.altered grant altered (by rw [phase]; rfl)) i
  | closeFreed => exact records_set_change .freed i
  | closeWaits front grant => exact records_set_change (.closed grant) i
  | closeAdopted front grant => exact records_set_change (.adopted grant) i
  | _ => exact .same

/-- A property that every change keeps of each record holds of every record after a step. -/
theorem step_keeps_records {P : Record → Prop} (keeps : ∀ {r r'}, RecordChange r r' → P r → P r') {s t : State}
    (h : step s = .next t) (hs : ∀ i : GrantIdx, P s.grants[i]) (i : GrantIdx) : P t.grants[i] :=
  step_keeps (P := fun s => ∀ i : GrantIdx, P s.grants[i]) (fun _ h => h) (fun s h => by rwa [moderate_grants])
    (fun hc hs i => keeps (records_change hc i) (hs i)) h hs i

/-! ### Sequences -/

theorem seqAfter_ne_zero (q : Seq) : seqAfter q ≠ 0#8 := by
  unfold seqAfter
  split
  · decide
  · bv_omega

theorem Record.tornDown_eq (r : Record) : r.tornDown = if r.grant.isSome then freedRecord r else r := rfl

theorem fallOutcome_seq (r : Record) (n : GenNo) :
    (fallOutcome r n).1.seq = r.seq ∨ (fallOutcome r n).1.seq = seqAfter r.seq := by
  unfold fallOutcome
  repeat' split
  all_goals simp [freedRecord]

theorem seq_change {r r' : Record} (h : RecordChange r r') (hs : r.seq ≠ 0#8) : r'.seq ≠ 0#8 := by
  cases h with
  | reset => simp [Record.initial]
  | tornDown =>
    rw [Record.tornDown_eq]
    split
    · exact seqAfter_ne_zero _
    · exact hs
  | fell n =>
    obtain h | h := fallOutcome_seq r n
    · rwa [h]
    · rw [h]
      exact seqAfter_ne_zero _
  | ran =>
    unfold recordRun
    split <;> exact hs
  | freed => exact seqAfter_ne_zero _
  | _ => exact hs

/-! ### Leases and counters -/

/-- A property of the grant of a record, if it has one. -/
def Record.meets (P : Grant → Prop) (r : Record) : Prop :=
  ∀ g, r.grant = some g → P g

theorem Record.meets_none {P : Grant → Prop} {r : Record} (h : r.grant = none) : r.meets P :=
  fun _ hg => absurd (h.symm.trans hg) (by simp)

theorem Record.meets_some {P : Grant → Prop} {r : Record} {g : Grant} (h : P g) : ({ r with grant := some g } : Record).meets P :=
  fun _ hg => Option.some.inj hg ▸ h

theorem Record.meets_tornDown {P : Grant → Prop} (r : Record) : r.tornDown.meets P := by
  rw [Record.tornDown_eq]
  split
  · exact meets_none rfl
  · rename_i h
    exact meets_none (by simpa using h)

/-- The fall of a count leaves a grant its lease, its counters and its cause of closing. -/
structure SameTerms (g g' : Grant) : Prop where
  lease : g'.lease = g.lease
  cause : g'.phase.cause = g.phase.cause
  reads : g'.readCount = g.readCount
  writes : g'.writeCount = g.writeCount

theorem Record.meets_fallOutcome {P : Grant → Prop} {r : Record} (n : GenNo) (h : r.meets P)
    (terms : ∀ {g g'}, SameTerms g g' → P g → P g') : (fallOutcome r n).1.meets P := by
  unfold fallOutcome
  split
  · exact h
  · rename_i g hg
    have own : ∀ {g'}, SameTerms g g' → P g' := fun same => terms same (h g hg)
    split
    · split
      · split
        · exact meets_none rfl
        · exact meets_some (own ⟨rfl, rfl, rfl, rfl⟩)
      · exact meets_some (own ⟨rfl, rfl, rfl, rfl⟩)
    · split
      · rename_i p hp
        have cause : none = g.phase.cause := by rw [hp]; rfl
        split
        · exact h
        · split
          · exact meets_some (own ⟨rfl, cause, rfl, rfl⟩)
          · exact meets_some (own ⟨rfl, cause, rfl, rfl⟩)
      · rename_i c p hp
        have cause : some c = g.phase.cause := by rw [hp]; rfl
        split
        · exact h
        · split
          · split
            · exact meets_none rfl
            · exact meets_some (own ⟨rfl, cause, rfl, rfl⟩)
          · exact meets_some (own ⟨rfl, cause, rfl, rfl⟩)
      · exact h

/-- The lease of a grant that is not closing: untimed, or with a period of 1 or more and a remaining time within it (R53). -/
def leaseInRange : Lease → Prop
  | .untimed => True
  | .timed _ p r => p ≠ 0#16 ∧ r ≤ p.toNat * 100

theorem leaseSound_range {g : Grant} (h : leaseSound g) : leaseInRange g.lease := by
  unfold leaseSound at h
  split at h <;> rename_i hl <;> rw [hl]
  · trivial
  · exact ⟨h.1, h.2.1⟩

theorem leaseSound_of_running {g : Grant} (hc : g.phase.cause = none) (h : leaseInRange g.lease) : leaseSound g := by
  unfold leaseSound
  rw [hc]
  split <;> rename_i hl
  · simp
  · rw [hl] at h
    exact ⟨h.1, h.2, by simp, by simp⟩

theorem leaseSound_sameTerms {g g' : Grant} (h : SameTerms g g') (hs : leaseSound g) : leaseSound g' := by
  unfold leaseSound
  rw [h.lease, h.cause]
  exact hs

theorem leaseInRange_started {old new : Lease} (h : leaseKeptOrStarted old new) (ho : leaseInRange old) : leaseInRange new := by
  obtain rfl | rfl | ⟨kind, p, hp, rfl⟩ := h
  · exact ho
  · trivial
  · refine ⟨?_, le_rfl⟩
    obtain hp | ⟨kind', r, rfl⟩ := hp
    · exact hp
    · exact ho.1

theorem leaseInRange_supplied {sl : Slot} {l : Lease} (h : suppliedLease sl l) : leaseInRange l := by
  obtain ⟨-, rfl⟩ | ⟨-, hp, rfl⟩ | ⟨-, hp, rfl⟩ := h
  · trivial
  · exact ⟨hp, le_rfl⟩
  · exact ⟨hp, le_rfl⟩

theorem leaseInRange_used {l : Lease} (h : leaseInRange l) : leaseInRange (leaseUsed l) := by
  unfold leaseUsed
  split
  · exact ⟨h.1, le_rfl⟩
  · exact h

theorem leaseInRange_run {l : Lease} (h : leaseInRange l) : leaseInRange (leaseRun l) := by
  cases l with
  | untimed => trivial
  | timed k p u => exact ⟨h.1, le_trans (Nat.sub_le u 1) h.2⟩

theorem one_le_toNat {p : BitVec 16} (h : p ≠ 0#16) : 1 ≤ p.toNat := by
  bv_omega

/-- A lease that a CLOSE stops keeps some time (R54). -/
theorem leaseSound_closed {g : Grant} {prev : Option PrevGeneration} {w : Option SlotNo} (h : leaseInRange g.lease) :
    leaseSound { g with phase := .closing .command prev, lease := leaseStopped g.lease, waiting := w } := by
  unfold leaseSound leaseStopped
  cases hl : g.lease with
  | untimed => simp [Phase.cause]
  | timed k p r =>
    rw [hl] at h
    have := one_le_toNat h.1
    have hr := h.2
    exact ⟨h.1, by omega, by simp [Phase.cause], fun _ => le_max_left 1 r⟩

theorem lease_change {r r' : Record} (h : RecordChange r r') (hs : r.meets leaseSound) : r'.meets leaseSound := by
  cases h with
  | same => exact hs
  | reset => exact Record.meets_none rfl
  | tornDown => exact r.meets_tornDown
  | fell n => exact Record.meets_fallOutcome n hs leaseSound_sameTerms
  | ran =>
    unfold recordRun
    split
    · exact hs
    · rename_i g hg
      refine Record.meets_some ?_
      split
      · exact hs g hg
      · rename_i open'
        exact leaseSound_of_running (cause_of_isClosing (by simpa using open')) (leaseInRange_run (leaseSound_range (hs g hg)))
  | freed => exact Record.meets_none rfl
  | @counted g k grant opened =>
    refine Record.meets_some (leaseSound_of_running (cause_of_isClosing opened) ?_)
    have used : (g.counted k).lease = leaseUsed g.lease := Lease.used_eq g.lease
    rw [used]
    exact leaseInRange_used (leaseSound_range (hs g grant))
  | opened lease => exact Record.meets_some (leaseSound_of_running rfl (leaseInRange_supplied lease))
  | @altered g g' grant altered running =>
    exact Record.meets_some
      (leaseSound_of_running running (leaseInRange_started altered.lease (leaseSound_range (hs g grant))))
  | @expired g kind p prev grant due =>
    have range := leaseSound_range (hs g grant)
    rw [due] at range
    exact Record.meets_some ⟨range.1, range.2, fun _ => rfl, by simp [Phase.cause]⟩
  | closed grant => exact Record.meets_some (leaseSound_closed (leaseSound_range (hs _ grant)))
  | adopted grant =>
    have sound := hs _ grant
    exact Record.meets_some (leaseSound_sameTerms ⟨rfl, rfl, rfl, rfl⟩ sound)

/-- The access counters saturate (R19). -/
def countersBounded (g : Grant) : Prop :=
  g.readCount ≤ 4294967295 ∧ g.writeCount ≤ 4294967295

theorem countersBounded_of_same {g g' : Grant} (reads : g'.readCount = g.readCount) (writes : g'.writeCount = g.writeCount)
    (h : countersBounded g) : countersBounded g' := by
  unfold countersBounded
  rwa [reads, writes]

theorem countersBounded_counted {g : Grant} (k : AccessKind) (h : countersBounded g) : countersBounded (g.counted k) := by
  have max : Config.maxAccessCount = 4294967295 := rfl
  unfold countersBounded Grant.counted
  rw [max]
  dsimp only
  obtain ⟨hr, hw⟩ := h
  constructor <;> split <;> omega

theorem counters_change {r r' : Record} (h : RecordChange r r') (hs : r.meets countersBounded) : r'.meets countersBounded := by
  cases h with
  | same => exact hs
  | reset => exact Record.meets_none rfl
  | tornDown => exact r.meets_tornDown
  | fell n => exact Record.meets_fallOutcome n hs fun terms => countersBounded_of_same terms.reads terms.writes
  | ran =>
    unfold recordRun
    split
    · exact hs
    · rename_i g hg
      exact Record.meets_some (countersBounded_of_same rfl rfl (hs g hg))
  | freed => exact Record.meets_none rfl
  | counted k grant => exact Record.meets_some (countersBounded_counted k (hs _ grant))
  | opened => exact Record.meets_some ⟨Nat.zero_le _, Nat.zero_le _⟩
  | altered grant altered =>
    exact Record.meets_some (countersBounded_of_same altered.readCount altered.writeCount (hs _ grant))
  | expired grant | closed grant | adopted grant =>
    have bounded := hs _ grant
    exact Record.meets_some (countersBounded_of_same rfl rfl bounded)

/-- Settles O53: each change of a record keeps its sequence off 0, its lease sound and its counters bounded. -/
theorem stepKeepsSequencesAndLeases : Obligations.StepKeepsSequencesAndLeases :=
  fun _ _ h =>
    ⟨step_keeps_records (P := fun r => r.seq ≠ 0#8) seq_change h, step_keeps_records lease_change h,
      step_keeps_records counters_change h⟩

end Sys2Proof.Machine
end

section
/-! PROOF. Fault slots, LRST, tags and the notice unit (R78, R80, R88, R91, R147, R151, R159): what a change makes of one port and of
one tag, said once, and the invariants of them. -/

namespace Sys2Proof.Machine

open Sys2Proof.Safety

/-! ### One port -/

/-- A port with the run state, fault slot and overflow count of another, and with its head access or none. -/
structure PortKept (q q' : Port) : Prop where
  run : q'.run = q.run
  fault : q'.fault = q.fault
  overflow : q'.overflow = q.overflow
  head : q'.head = q.head ∨ q'.head = none

/-- What a change can make of one port, LRST being as `lrst` says. -/
inductive PortChange (lrst : Bool) (q : Port) : Port → Prop
  | reset : PortChange lrst q Port.initial
  | cleaned : PortChange lrst q (cleanPort q)
  | resumed : PortChange lrst q { q with run := .run, fault := none, overflow := 0 }
  | taken {a : Access} (released : lrst = false) : PortChange lrst q { q with head := some a }
  | kept {q' : Port} (same : PortKept q q') : PortChange lrst q q'
  | captured {q' : Port} {f : FaultRecord} (same : PortKept q q') : PortChange lrst q (faulted q' f)

theorem portChange_same (lrst : Bool) (q : Port) : PortChange lrst q q :=
  .kept ⟨rfl, rfl, rfl, .inl rfl⟩

theorem ports_set_change {s : State} {p : PortNo} {q : Port} (h : PortChange s.lrst s.ports[p] q) (p' : PortNo) :
    PortChange s.lrst s.ports[p'] (s.ports.set p q)[p'] := by
  rw [ports_set_get]
  split
  · rename_i e
    subst e
    exact h
  · exact portChange_same _ _

theorem portRefusing_change (lrst : Bool) (q : Port) (a : Access) (r : Result) (h : Option Handle) :
    PortChange lrst q (portRefusing q a r h) := by
  unfold portRefusing
  split
  · exact .kept ⟨rfl, rfl, rfl, .inr rfl⟩
  · exact .captured ⟨rfl, rfl, rfl, .inr rfl⟩

theorem portAfterRead_kept (q : Port) (r : ReadInfo) : PortKept q (portAfterRead q r) :=
  ⟨rfl, rfl, rfl, .inl rfl⟩

theorem initial_change {s x : State} (hx : x.ports = Vector.replicate 8 Port.initial) (p : PortNo) :
    PortChange s.lrst s.ports[p] x.ports[p] := by
  have hget : x.ports[p] = Port.initial := by simp [hx]
  rw [hget]
  exact .reset

theorem ports_change {s x : State} (hc : Change s x) (p : PortNo) : PortChange s.lrst s.ports[p] x.ports[p] := by
  cases hc with
  | powerOn | linkDown | tornDown => exact initial_change rfl p
  | lrstAsserted =>
    have hget : (Vector.ofFn fun p : PortNo => cleanPort s.ports[p])[p] = cleanPort s.ports[p] := by simp
    rw [hget]
    exact .cleaned
  | headTaken released => exact ports_set_change (.taken released) p
  | headRefused => exact ports_set_change (portRefusing_change _ _ _ _ _) p
  | readIssued | writeAccepted =>
    refine ports_set_change (.kept ?_) p
    exact ⟨rfl, rfl, rfl, .inr rfl⟩
  | @readRetired n r i u res next port beats c tag after ended =>
    change PortChange s.lrst s.ports[p] (if r.detached then s.ports else s.ports.set r.requester port)[p]
    split
    · exact portChange_same _ _
    · refine ports_set_change ?_ p
      obtain rfl | ⟨f, rfl⟩ := ended
      · exact .kept (portAfterRead_kept _ _)
      · exact .captured (portAfterRead_kept _ _)
  | requesterSet =>
    refine ports_set_change (.kept ?_) p
    exact ⟨rfl, rfl, rfl, .inl rfl⟩
  | requesterResumed => exact ports_set_change .resumed p
  | requesterReset => exact ports_set_change .cleaned p
  | _ => exact portChange_same _ _

/-! ### One tag -/

/-- What a change of `s` can make of one tag. -/
inductive TagChange (s : State) (e : TagEntry) : TagEntry → Prop
  | same : TagChange s e e
  | freed : TagChange s e .free
  | letGo (chosen : PortNo → Bool) : TagChange s e (letGo chosen e)
  | ran : TagChange s e (tagRun e)
  | parked {r : ReadInfo} {i u : Nat} (was : e = .waiting r i u) : TagChange s e (.parked i (i * 100))
  | took {r : ReadInfo} {i u n : Nat} (was : e = .waiting r i u) (unfinished : r.received + n < r.length) :
      TagChange s e (.waiting { r with received := r.received + n } i u)
  | issued {r : ReadInfo} {p : PortNo} (head : s.ports[p].head ≠ none) (unread : r.received = 0) (min : 1 ≤ r.length)
      (max : r.length ≤ 512) : TagChange s e (.waiting r s.timing.timeout (s.timing.timeout * 100))

theorem tags_set_change {s : State} {n : TagNo} {e : TagEntry} (h : TagChange s s.tags[n] e) (t : TagNo) :
    TagChange s s.tags[t] (s.tags.set n e)[t] := by
  rw [tags_set_get]
  split
  · rename_i e
    subst e
    exact h
  · exact .same

theorem letGo_change {s : State} (chosen : PortNo → Bool) (t : TagNo) :
    TagChange s s.tags[t] (Vector.ofFn fun n : TagNo => letGo chosen s.tags[n])[t] := by
  have hget : (Vector.ofFn fun n : TagNo => letGo chosen s.tags[n])[t] = letGo chosen s.tags[t] := by simp
  rw [hget]
  exact .letGo chosen

theorem free_change {s x : State} (hx : x.tags = Vector.replicate 32 .free) (t : TagNo) : TagChange s s.tags[t] x.tags[t] := by
  have hget : x.tags[t] = .free := by simp [hx]
  rw [hget]
  exact .freed

/-- An access that is not malformed has 1 to 512 bytes (R12, R13). -/
theorem formed_length {q : Port} {a : Access} (h : ¬ malformedAccess q a) : 1 ≤ a.length ∧ a.length ≤ 512 := by
  unfold malformedAccess at h
  omega

theorem tags_change {s x : State} (hc : Change s x) (t : TagNo) : TagChange s s.tags[t] x.tags[t] := by
  cases hc with
  | powerOn | linkDown | tornDown => exact free_change rfl t
  | lrstAsserted | requesterReset => exact letGo_change _ t
  | readIssued head limit free formed =>
    obtain ⟨min, max⟩ := formed_length formed
    exact tags_set_change (.issued (by rw [head]; simp) rfl min max) t
  | bytesTaken tag unfinished => exact tags_set_change (.took tag unfinished) t
  | readRetired c tag after =>
    refine tags_set_change ?_ t
    obtain rfl | rfl := after
    · exact .freed
    · exact .parked tag
  | tagFreed => exact tags_set_change .freed t
  | ticked =>
    have hget : (Vector.ofFn fun n : TagNo => tagRun s.tags[n])[t] = tagRun s.tags[t] := by simp
    rw [hget]
    exact .ran
  | _ => exact .same

/-! ### Fault slots (R78, R80) -/

/-- `FaultSlotsSound`, of one port. -/
def faultGood (q : Port) : Prop :=
  (q.run = .halted → q.fault.isSome = true) ∧ (q.overflow ≠ 0 → q.fault.isSome = true) ∧ q.overflow ≤ 255

theorem faultGood_kept {q q' : Port} (h : PortKept q q') (hq : faultGood q) : faultGood q' := by
  unfold faultGood
  rwa [h.run, h.fault, h.overflow]

theorem faultGood_clear {q : Port} (run : q.run = .run) (overflow : q.overflow = 0) : faultGood q := by
  unfold faultGood
  rw [run, overflow]
  simp

theorem faultGood_faulted {q : Port} (f : FaultRecord) (h : faultGood q) : faultGood (faulted q f) := by
  obtain ⟨-, -, bounded⟩ := h
  unfold faulted
  split
  · exact ⟨fun _ => rfl, fun _ => rfl, bounded⟩
  · rename_i filled
    refine ⟨fun _ => by rw [filled]; rfl, fun _ => by rw [filled]; rfl, min_le_left _ _⟩

theorem faultGood_change {lrst : Bool} {q q' : Port} (h : PortChange lrst q q') (hq : faultGood q) : faultGood q' := by
  cases h with
  | reset | cleaned | resumed => exact faultGood_clear rfl rfl
  | taken => exact hq
  | kept same => exact faultGood_kept same hq
  | captured same => exact faultGood_faulted _ (faultGood_kept same hq)

/-! ### LRST (R88) -/

theorem liveTags_zero_iff (s : State) (p : PortNo) : s.liveTags p = 0 ↔ ∀ t : TagNo, s.tags[t].liveFor p = false := by
  unfold State.liveTags
  rw [List.countP_eq_zero]
  constructor
  · intro h t
    exact Bool.eq_false_iff.mpr (h _ (by simp))
  · intro h e he
    obtain ⟨t, ht, rfl⟩ := Vector.mem_iff_getElem.mp (Vector.mem_toList_iff.mp he)
    exact Bool.eq_false_iff.mp (h ⟨t, ht⟩)

/-- A change leaves a head access absent, unless LRST is released. -/
theorem head_change {q q' : Port} (h : PortChange true q q') (hq : q.head = none) : q'.head = none := by
  have kept : ∀ {q'}, PortKept q q' → q'.head = none := fun same => same.head.elim (fun e => e.trans hq) id
  cases h with
  | reset | cleaned => rfl
  | resumed => exact hq
  | taken released => cases released
  | kept same => exact kept same
  | captured same =>
    have absent := kept same
    unfold faulted
    split <;> exact absent

/-- A change makes no read live, unless a head access is present. -/
theorem liveFor_change {s : State} {e e' : TagEntry} {p : PortNo} (h : TagChange s e e') (absent : ∀ p : PortNo, s.ports[p].head = none)
    (he : e.liveFor p = false) : e'.liveFor p = false := by
  cases h with
  | same => exact he
  | freed | parked => rfl
  | letGo chosen =>
    by_cases hp : chosen p = true
    · exact (noRead_letGo hp e).1
    · rw [(sameReads_letGo (Bool.eq_false_iff.mpr hp) e).1]
      exact he
  | ran => rwa [(sameReads_tagRun p e).1]
  | took was =>
    subst was
    exact he
  | issued head => exact absurd (absent _) head

/-- Every head absent and every read detached: `LrstQuiet` while LRST is asserted. -/
def cardQuiet (s : State) : Prop :=
  ∀ p : PortNo, s.ports[p].head = none ∧ s.liveTags p = 0

theorem cardQuiet_change {s x : State} (hc : Change s x) (held : s.lrst = true) (h : cardQuiet s) : cardQuiet x := by
  intro p
  refine ⟨head_change (held ▸ ports_change hc p) (h p).1, (liveTags_zero_iff x p).mpr fun t => ?_⟩
  exact liveFor_change (tags_change hc t) (fun p => (h p).1) ((liveTags_zero_iff s p).mp (h p).2 t)

/-- A change that is not of LRST keeps its level. -/
theorem lrst_change {s x : State} (hc : Change s x) :
    x.lrst = s.lrst ∨ x.lrst = false ∨ cardQuiet x := by
  cases hc with
  | lrstAsserted =>
    refine .inr (.inr fun p => ⟨by simp [cleanPort], (liveTags_zero_iff _ p).mpr fun t => ?_⟩)
    have hget : (Vector.ofFn fun n : TagNo => letGo (fun _ => true) s.tags[n])[t] = letGo (fun _ => true) s.tags[t] := by simp
    rw [hget]
    exact (noRead_letGo rfl _).1
  | lrstReleased => exact .inr (.inl rfl)
  | linkDown => exact .inl s.leaveUp_lrst
  | tornDown => exact .inl s.teardown_lrst
  | _ => exact .inl rfl

theorem lrstQuiet_change {s x : State} (hc : Change s x) (h : LrstQuiet s) : LrstQuiet x := by
  intro held
  obtain same | released | quiet := lrst_change hc
  · have held' := same.symm.trans held
    exact cardQuiet_change hc held' (h held')
  · cases released.symm.trans held
  · exact quiet

/-! ### Tags and timing parameters (R91, R147) -/

/-- The timing parameters lie in their ranges (R147). -/
def timingSound (t : Timing) : Prop :=
  1 ≤ t.timeout ∧ t.timeout ≤ 64 ∧ 1 ≤ t.threshold ∧ t.threshold ≤ 255 ∧ t.holdoff ≤ 255

theorem timingSound_initial : timingSound Timing.initial := by
  unfold timingSound
  decide

theorem timingSound_after {sl : Slot} {t : Timing} (good : timingGood sl) (h : timingSound t) : timingSound (timingAfter sl t) := by
  obtain ⟨-, timeout, threshold, holdoff⟩ := good
  obtain ⟨ht, ht', hth, hth', hh⟩ := h
  have timeoutGood : 1 ≤ (timingAfter sl t).timeout ∧ (timingAfter sl t).timeout ≤ 64 := by
    unfold timingAfter
    dsimp only
    split
    · rename_i hp
      exact timeout hp
    · exact ⟨ht, ht'⟩
  have thresholdGood : 1 ≤ (timingAfter sl t).threshold ∧ (timingAfter sl t).threshold ≤ 255 := by
    unfold timingAfter
    dsimp only
    split
    · rename_i hp
      exact threshold hp
    · exact ⟨hth, hth'⟩
  have holdoffGood : (timingAfter sl t).holdoff ≤ 255 := by
    unfold timingAfter
    dsimp only
    split
    · rename_i hp
      exact holdoff hp
    · exact hh
  exact ⟨timeoutGood.1, timeoutGood.2, thresholdGood.1, thresholdGood.2, holdoffGood⟩

/-- A change keeps the timing parameters, sets good ones or returns them to their defaults. -/
theorem timing_change {s x : State} (hc : Change s x) : x.timing = s.timing ∨ x.timing = Timing.initial
    ∨ ∃ sl, timingGood sl ∧ x.timing = timingAfter sl s.timing := by
  cases hc with
  | powerOn | linkDown | tornDown => exact .inr (.inl rfl)
  | timingSet front good => exact .inr (.inr ⟨_, good, rfl⟩)
  | _ => exact .inl rfl

theorem tagSound_change {s : State} {e e' : TagEntry} (h : TagChange s e e') (timing : timingSound s.timing) (he : tagSound e) :
    tagSound e' := by
  cases h with
  | same => exact he
  | freed => trivial
  | letGo chosen =>
    cases e with
    | free | parked => exact he
    | waiting r i u =>
      unfold letGo
      dsimp only
      split <;> exact he
  | ran =>
    cases e with
    | free => trivial
    | waiting r i u =>
      obtain ⟨h1, h2, h3, h4, h5, h6⟩ := he
      exact ⟨h1, h2, h3, h4, h5, le_trans (Nat.sub_le u 1) h6⟩
    | parked i u => exact ⟨he.1, he.2.1, le_trans (Nat.sub_le u 1) he.2.2⟩
  | parked was =>
    subst was
    obtain ⟨-, -, -, hmin, hmax, -⟩ := he
    exact ⟨hmin, hmax, le_rfl⟩
  | took was unfinished =>
    subst was
    obtain ⟨hmin, hmax, -, rest⟩ := he
    exact ⟨hmin, hmax, unfinished, rest⟩
  | issued head unread min max =>
    obtain ⟨ht, ht', -⟩ := timing
    exact ⟨min, max, by omega, ht, ht', le_rfl⟩

theorem tagsSound_change {s x : State} (hc : Change s x) (h : TagsSound s) : TagsSound x := by
  obtain ⟨tags, timing⟩ := h
  refine ⟨fun t => tagSound_change (tags_change hc t) timing (tags t), ?_⟩
  change timingSound x.timing
  obtain e | e | ⟨sl, good, e⟩ := timing_change hc <;> rw [e]
  · exact timing
  · exact timingSound_initial
  · exact timingSound_after good timing

/-! ### The notice unit (R147, R151, R159) -/

/-- What a change does to the count, and to a timer that runs (R104, R159). -/
theorem notice_change {s x : State} (hc : Change s x) :
    x.notice.holdoffTimer = none ∧ (x.notice.eventCount = 0 ∨ x.notice.eventCount = s.notice.eventCount)
      ∨ x.notice.eventCount = s.notice.eventCount
        ∧ (x.notice.holdoffTimer = s.notice.holdoffTimer ∨ x.notice.holdoffTimer = s.notice.holdoffTimer.map fun u => u - 1) := by
  cases hc with
  | powerOn | linkDown | tornDown | messageAttempted => exact .inl ⟨rfl, .inl rfl⟩
  | holdoffStopped => exact .inl ⟨rfl, .inr rfl⟩
  | ticked => exact .inr ⟨rfl, .inr rfl⟩
  | _ => exact .inr ⟨rfl, .inl rfl⟩

theorem noticesSound_change {s x : State} (hc : Change s x) (h : NoticesSound s) : NoticesSound x := by
  obtain ⟨count, holdoff, timer⟩ := h
  have holdoff' : x.timing.holdoff ≤ 255 := by
    obtain e | e | ⟨sl, good, e⟩ := timing_change hc <;> rw [e]
    · exact holdoff
    · decide
    · unfold timingAfter
      dsimp only
      split
      · rename_i hp
        exact good.2.2.2 hp
      · exact holdoff
  obtain ⟨stopped, hcount⟩ | ⟨hcount, runs⟩ := notice_change hc
  · exact ⟨by omega, holdoff', fun t ht => absurd (stopped.symm.trans ht) (by simp)⟩
  · refine ⟨by omega, holdoff', fun t ht => ?_⟩
    rw [hcount]
    obtain e | e := runs <;> rw [e] at ht
    · exact timer t ht
    · obtain ⟨u, hu, rfl⟩ := Option.map_eq_some_iff.mp ht
      obtain ⟨hmax, hmin⟩ := timer u hu
      exact ⟨by omega, hmin⟩

theorem countAfter_le {c : Nat} (h : c ≤ 255) (n : Nat) : countAfter c n ≤ 255 := by
  have max : Config.maxSmallCount = 255 := rfl
  unfold countAfter
  rw [max]
  split <;> omega

theorem le_countAfter {c : Nat} (h : c ≤ 255) (n : Nat) : c ≤ countAfter c n := by
  have max : Config.maxSmallCount = 255 := rfl
  unfold countAfter
  rw [max]
  split <;> omega

theorem countAfter_pos (c : Nat) {n : Nat} (h : 0 < n) : 1 ≤ countAfter c n := by
  have max : Config.maxSmallCount = 255 := rfl
  unfold countAfter
  rw [max]
  split <;> omega

theorem noticesSound_moderate (s : State) {x : State} (h : NoticesSound x) : NoticesSound (moderate s x) := by
  obtain ⟨count, holdoff, timer⟩ := h
  have more : ∀ {t}, x.notice.holdoffTimer = some t → t ≤ 255 ∧ 1 ≤ countAfter x.notice.eventCount (eventsBetween s x) :=
    fun ht => ⟨(timer _ ht).1, le_trans (timer _ ht).2 (le_countAfter count _)⟩
  obtain ⟨-, e⟩ | ⟨-, -, e⟩ | ⟨-, -, e⟩ := moderate_cases s x <;> rw [e]
  · refine ⟨countAfter_le count _, holdoff, fun t ht => ?_⟩
    dsimp only at ht
    split at ht
    · rename_i starts
      cases ht
      exact ⟨holdoff, countAfter_pos _ starts.1⟩
    · exact more ht
  · exact ⟨countAfter_le count _, holdoff, fun t ht => more ht⟩
  · exact ⟨Nat.zero_le _, holdoff, fun t ht => by cases ht⟩

/-! ### The step -/

/-- Settles O55: by what a change makes of one port, of one tag, of the timing parameters and of the notice unit. -/
theorem stepKeepsUnitsInRange : Obligations.StepKeepsUnitsInRange := by
  intro s t h
  refine ⟨?_, ?_, ?_, ?_⟩
  · exact step_keeps (P := FaultSlotsSound) (fun _ h => h) (fun s h => by unfold FaultSlotsSound; rwa [moderate_ports])
      (fun hc hs p => faultGood_change (ports_change hc p) (hs p)) h
  · refine step_keeps (P := LrstQuiet) (fun _ h => h) (fun s h => ?_) lrstQuiet_change h
    unfold LrstQuiet State.liveTags
    rwa [moderate_ports, moderate_tags, moderate_lrst]
  · refine step_keeps (P := TagsSound) (fun _ h => h) (fun s h => ?_) tagsSound_change h
    unfold TagsSound
    rwa [moderate_tags, moderate_timing]
  · exact step_keeps (P := NoticesSound) (fun _ h => h) (fun s h => noticesSound_moderate s h) noticesSound_change h

end Sys2Proof.Machine
end

section
/-! PROOF. What holds of every command: that it answers, that nothing answered or sent is recalled (R66, R67, R169), that the end of
a slot sets its notice cause (R145), and that the invariants hold at power-on. -/

namespace Sys2Proof.Machine

open Sys2Proof.Safety

/-! ### Every command answers -/

/-- A next state: neither a fault nor a refusal. -/
def answers (o : Host.Outcome State Fault Refusal) : Prop :=
  ∃ t, o = .next t

theorem answers_next (t : State) : answers (.next t) := ⟨t, rfl⟩

theorem answers_answerNext (s t : State) : answers (answerNext s t) := ⟨_, rfl⟩

theorem answers_hostAccess (f : State → State) (s : State) : answers (hostAccess f s) := by
  unfold hostAccess
  split
  · exact answers_answerNext _ _
  · exact answers_next _

theorem answers_engine (isRow : BitVec 16 → Bool) (cmd : SlotNo → State → State) (s : State) :
    answers (engine isRow cmd s) := by
  unfold engine
  split
  · exact answers_next _
  · split
    · exact answers_answerNext _ _
    · exact answers_next _

theorem answers_presentAccess (p : PortNo) (a : Presented) (s : State) : answers (execPresentAccess p a s) := by
  unfold execPresentAccess
  split
  · exact answers_next _
  · exact answers_answerNext _ _

theorem answers_writeGrant (s : State) : answers (execWriteGrant s) := by
  unfold execWriteGrant
  split
  · exact answers_next _
  · split
    · exact answers_answerNext _ _
    · exact answers_next _

theorem answers_writeLeaving (s : State) : answers (execWriteLeaving s) := by
  unfold execWriteLeaving
  split
  · exact answers_next _
  · split
    · exact answers_answerNext _ _
    · exact answers_next _

theorem answers_completionPart (n : Nat) (c : Completion) (s : State) : answers (execCompletionPart n c s) := by
  unfold execCompletionPart
  split
  · exact answers_answerNext _ _
  · exact answers_next _

theorem answers_deadlineExpiry (n : TagNo) (s : State) : answers (execDeadlineExpiry n s) := by
  unfold execDeadlineExpiry
  split
  · exact answers_answerNext _ _
  · exact answers_next _

theorem answers_parkPeriodEnd (n : TagNo) (s : State) : answers (execParkPeriodEnd n s) := by
  unfold execParkPeriodEnd
  split
  · exact answers_next _
  · exact answers_next _

theorem answers_leaseExpiry (i : GrantIdx) (s : State) : answers (execLeaseExpiry i s) := by
  by_cases h : ∃ g, s.grants[i].grant = some g ∧ g.leaseDue = true
  · obtain ⟨g, grant, hdue⟩ := h
    obtain ⟨opened, kind, p, due⟩ := g.leaseDue_iff.mp hdue
    exact ⟨_, execLeaseExpiry_due grant opened due⟩
  · exact ⟨s, execLeaseExpiry_idle fun g hg => Bool.eq_false_iff.mpr fun hdue => h ⟨g, hg, hdue⟩⟩

theorem answers_holdoffExpiry (s : State) : answers (execHoldoffExpiry s) := by
  unfold execHoldoffExpiry
  split
  · exact answers_next _
  · exact answers_next _

theorem answers_exec (c : Instr) (s : State) : answers (exec c s) := by
  cases c with dsimp only [exec]
  | powerOn | trainingComplete | linkLost | hotReset | functionReset | creditGrant | lrstAssertion | lrstDeassertion
  | tagGrant | memoryReadSend | messageSend => exact answers_next _
  | presentAccess => exact answers_presentAccess _ _ _
  | writeGrant => exact answers_writeGrant s
  | writeLeaving => exact answers_writeLeaving s
  | completionPart => exact answers_completionPart _ _ _
  | deadlineExpiry => exact answers_deadlineExpiry _ s
  | parkPeriodEnd => exact answers_parkPeriodEnd _ s
  | leaseExpiry => exact answers_leaseExpiry _ s
  | holdoffExpiry => exact answers_holdoffExpiry s
  | openGrant | modify | close | renew | query | lookup | fence | setRequester | queryRequester | resume | resetRequester | setTiming
  | badop => exact answers_engine _ _ _
  | submission | cancel | hostWindowWrite | acknowledge | enable | setEnable | clearEnable | masterEnable
  | expiredSetClear => exact answers_hostAccess _ _

/-! ### Nothing is recalled (R66, R67, R169) -/

/-- A later state has the queue of commands of an earlier one, and what was answered and sent then. -/
structure Extends (s t : State) : Prop where
  pending : t.pending = s.pending
  answers : s.answers <+: t.answers
  sent : s.sent <+: t.sent

theorem extends_refl (s : State) : Extends s s :=
  ⟨rfl, List.prefix_refl _, List.prefix_refl _⟩

theorem extends_trans {s u t : State} (h : Extends s u) (h' : Extends u t) : Extends s t :=
  ⟨h'.pending.trans h.pending, h.answers.trans h'.answers, h.sent.trans h'.sent⟩

theorem extends_change {s x : State} (hc : Change s x) : Extends s x := by
  cases hc with
  | linkDown => exact ⟨s.leaveUp_pending, List.prefix_append _ _, by rw [State.leaveUp_sent]⟩
  | tornDown => exact ⟨s.teardown_pending, List.prefix_append _ _, by rw [State.teardown_sent]⟩
  | readSent | messageSent | entryLeft => exact ⟨rfl, List.prefix_refl _, List.prefix_append _ _⟩
  | headRefused | readIssued | writeAccepted | bytesTaken => exact ⟨rfl, List.prefix_append _ _, List.prefix_refl _⟩
  | readRetired =>
    refine ⟨rfl, ?_, List.prefix_refl _⟩
    exact (List.prefix_append _ _).trans (List.prefix_append _ _)
  | _ => exact ⟨rfl, List.prefix_refl _, List.prefix_refl _⟩

theorem extends_moderate {s x : State} (h : Extends s x) : Extends s (moderate s x) := by
  rw [moderate_frame]
  exact ⟨h.pending, h.answers, h.sent⟩

/-- Settles O3: every arm answers a next state, and each change appends to answers and sent. -/
theorem commandsAnswerAndRecallNothing : Obligations.CommandsAnswerAndRecallNothing := by
  intro c s
  obtain ⟨t, ht⟩ := answers_exec c s
  obtain ⟨pending, ⟨more, hmore⟩, ⟨sent, hsent⟩⟩ :=
    exec_induction (R := Extends) extends_refl extends_trans extends_change extends_moderate ht
  exact ⟨t, ht, pending, ⟨more, hmore.symm⟩, ⟨sent, hsent.symm⟩⟩

/-! ### The end of a slot sets its cause (R145) -/

/-- The causes `c` cover every slot that enters DONE, and no slot returns to IDLE. -/
structure EndsCaused (slots slots' : Vector Slot 4) (c : CauseSet) : Prop where
  ended : ∀ k : SlotNo, slots[k].state ≠ .done → slots'[k].state = .done → c.getLsbD k.val = true
  busy : ∀ k : SlotNo, slots[k].state ≠ .idle → slots'[k].state ≠ .idle

/-- The notice unit keeps each cause that is set. -/
def grows (c c' : CauseSet) : Prop :=
  c &&& c' = c

theorem grows_or (a d : CauseSet) : grows a (a ||| d) := by
  unfold grows
  ext i hi
  simp only [BitVec.getElem_and, BitVec.getElem_or]
  cases a[i] <;> rfl

theorem grows_refl (c : CauseSet) : grows c c := BitVec.and_self

theorem grows_trans {a b c : CauseSet} (h : grows a b) (h' : grows b c) : grows a c := by
  unfold grows at *
  rw [← h, BitVec.and_assoc, h']

/-- What the statement says of the slot `k` of two states. -/
structure DoneCaused (s t : State) (k : SlotNo) : Prop where
  entered : s.slots[k].state ≠ .done → t.slots[k].state = .done →
    t.notice.status.getLsbD k.val = true ∧ grows s.notice.status t.notice.status
  returned : s.slots[k].state ≠ .idle → t.slots[k].state = .idle → t.notice.status.getLsbD k.val = false

theorem doneCaused_of_ends {s x : State} {c : CauseSet} (h : EndsCaused s.slots x.slots c)
    (hc : x.notice.status = s.notice.status ||| c) (k : SlotNo) : DoneCaused s x k where
  entered hs hx := by
    rw [hc, BitVec.getLsbD_or, h.ended k hs hx]
    exact ⟨Bool.or_true _, grows_or _ _⟩
  returned hs hx := absurd hx (h.busy k hs)

theorem doneCaused_of_same {s x : State} (h : ∀ k : SlotNo, x.slots[k].state = s.slots[k].state) (k : SlotNo) :
    DoneCaused s x k where
  entered hs hx := absurd ((h k).symm.trans hx) hs
  returned hs hx := absurd ((h k).symm.trans hx) hs

/-- A change after which no cause is set and every slot is IDLE. -/
theorem doneCaused_of_quiet {s x : State} (hs : ∀ k : SlotNo, x.slots[k] = Slot.initial) (hn : x.notice.status = 0#15)
    (k : SlotNo) : DoneCaused s x k where
  entered _ hx := by
    rw [hs k] at hx
    cases hx
  returned _ _ := by
    rw [hn]
    simp

/-- Causes that cover one set of slots cover it with others added. -/
theorem endsCaused_or {slots slots' : Vector Slot 4} {c : CauseSet} (d : CauseSet) (h : EndsCaused slots slots' c) :
    EndsCaused slots slots' (c ||| d) where
  ended k hs hx := by
    rw [BitVec.getLsbD_or, h.ended k hs hx]
    rfl
  busy := h.busy

theorem endsCaused_same (slots : Vector Slot 4) (c : CauseSet) : EndsCaused slots slots c :=
  ⟨fun _ hs hx => absurd hx hs, fun _ h => h⟩

theorem single_own (k : SlotNo) : (1#15 <<< k.val).getLsbD k.val = true := by
  rw [getLsbD_single _ _ (by omega)]
  exact decide_eq_true rfl

/-- One slot that ends, with its cause. -/
theorem endsCaused_set {slots : Vector Slot 4} {k : SlotNo} {sl : Slot} (h : sl.state ≠ .idle) :
    EndsCaused slots (slots.set k sl) (1#15 <<< k.val) where
  ended j hs hx := by
    rw [slots_set_get] at hx
    split at hx
    · rename_i e
      subst e
      exact single_own k
    · exact absurd hx hs
  busy j hs := by
    rw [slots_set_get]
    split
    · exact h
    · exact hs

/-- One slot that waits. -/
theorem endsCaused_waits {slots : Vector Slot 4} {k : SlotNo} {sl : Slot} (h : sl.state = .waiting) :
    EndsCaused slots (slots.set k sl) 0#15 where
  ended j hs hx := by
    rw [slots_set_get] at hx
    split at hx
    · exact absurd (h.symm.trans hx) (by simp)
    · exact absurd hx hs
  busy j hs := by
    rw [slots_set_get]
    split
    · rw [h]
      simp
    · exact hs

theorem endsCaused_trans {slots slots' slots'' : Vector Slot 4} {c d : CauseSet} (h : EndsCaused slots slots' c)
    (h' : EndsCaused slots' slots'' d) : EndsCaused slots slots'' (c ||| d) where
  ended k hs hx := by
    rw [BitVec.getLsbD_or]
    by_cases hm : slots'[k].state = .done
    · rw [h.ended k hs hm]
      rfl
    · rw [h'.ended k hm hx]
      exact Bool.or_true _
  busy k hs := h'.busy k (h.busy k hs)

theorem endsCaused_reported (slots : Vector Slot 4) (w : Option SlotNo) (st : Status) :
    EndsCaused slots (slotsReported slots w st) (reportCause w) := by
  cases w with
  | none => exact endsCaused_same slots _
  | some k => exact endsCaused_set (by simp [endedSlot])

/-- A departure ends a slot whose snapshot it empties, and no other (R127). -/
theorem slotAfterTag_state (t : TagNo) (sl : Slot) :
    (slotAfterTag t sl).state = if emptiedByTag t sl then .done else sl.state := by
  unfold slotAfterTag emptiedByTag
  split
  · rfl
  · unfold slotAfterDeparture
    split
    · rename_i sn _ ht
      by_cases he : sn.tags &&& ~~~ (1#32 <<< t.val) = 0#32 ∧ sn.entries = 0#16
      · simp [ht, he, endedSlot]
      · simp [ht, he]
    · rename_i ht
      refine (if_neg fun he => ht ?_).symm
      simp only [Bool.and_eq_true] at he
      exact he.1.1

theorem slotAfterEntry_state (sl : Slot) :
    (slotAfterEntry sl).state = if emptiedByEntry sl then .done else sl.state := by
  unfold slotAfterEntry emptiedByEntry
  split
  · rfl
  · unfold slotAfterDeparture
    split
    · rename_i sn _ ht
      by_cases he : sn.tags = 0#32 ∧ sn.entries >>> 1 = 0#16
      · simp [ht, he, endedSlot]
      · simp [ht, he]
    · rename_i ht
      refine (if_neg fun he => ht ?_).symm
      simp only [Bool.and_eq_true] at he
      exact he.1.1

theorem doneCauses_get (ends : SlotNo → Bool) (k : SlotNo) : (doneCauses ends).getLsbD k.val = ends k := by
  unfold doneCauses
  rw [getLsbD_maskOf, decide_eq_true (by omega), Bool.true_and, dif_pos k.isLt]

theorem endsCaused_departure (s : State) (w : Option SlotNo) {after : Slot → Slot} {emptied : Slot → Bool}
    (h : ∀ sl, (after sl).state = if emptied sl then .done else sl.state) :
    EndsCaused s.slots (slotsAfterDeparture s w after) (departureCauses s w emptied) := by
  have get : ∀ k : SlotNo, (slotsAfterDeparture s w after)[k]
      = if w = some k then endedSlot s.slots[k] .ok else after s.slots[k] := fun k => by simp [slotsAfterDeparture]
  constructor
  · intro k hs hx
    unfold departureCauses
    rw [doneCauses_get]
    rw [get] at hx
    split at hx
    · rename_i hw
      simp [hw]
    · rw [h] at hx
      split at hx
      · rename_i he
        rw [he, Bool.or_true]
      · exact absurd hx hs
  · intro k hs
    rw [get]
    split
    · simp [endedSlot]
    · rw [h]
      split
      · simp
      · exact hs

theorem doneCaused_change {s x : State} (hc : Change s x) : ∀ k, DoneCaused s x k := by
  cases hc with
  | powerOn => exact doneCaused_of_quiet hostQuiet_reset.slots rfl
  | linkDown => exact doneCaused_of_quiet (hostQuiet_leaveUp s).slots rfl
  | tornDown => exact doneCaused_of_quiet (fun k => by simp [State.teardown]) rfl
  | entryLeft => exact doneCaused_of_ends (endsCaused_departure s _ slotAfterEntry_state) rfl
  | @readRetired n r i u res next port beats c =>
    exact doneCaused_of_ends (endsCaused_or c (endsCaused_departure s _ (slotAfterTag_state n))) rfl
  | leaseExpired => exact doneCaused_of_ends (endsCaused_or _ (endsCaused_reported _ _ _)) rfl
  | slotEnded | grantOpened | grantAltered | requesterSet | requesterResumed | requesterReset | timingSet | cancelled =>
    exact doneCaused_of_ends (endsCaused_set (by simp [endedWith, endedSlot])) rfl
  | grantDrained | closeAdopted | fenceWaits => exact doneCaused_of_ends (endsCaused_waits rfl) (by simp [executed])
  | closeFreed =>
    exact doneCaused_of_ends (endsCaused_trans (endsCaused_reported _ _ _) (endsCaused_set (by simp [endedWith, endedSlot])))
      rfl
  | closeWaits =>
    exact doneCaused_of_ends (endsCaused_trans (endsCaused_reported _ _ _) (endsCaused_waits rfl)) (by simp [State.setCauses])
  | @submitted k op =>
    intro j
    have hget := slots_set_get s.slots k j { s.slots[k] with
      state := .pending, opcode := op, result := Vector.replicate 32 0#32, status := .none, collided := false }
    refine ⟨fun hs hx => ?_, fun hs hx => ?_⟩ <;> dsimp only at hx <;> rw [hget] at hx <;> split at hx
    · cases hx
    · exact absurd hx hs
    · cases hx
    · exact absurd hx hs
  | collided | argumentWritten =>
    refine doneCaused_of_same fun j => ?_
    dsimp only [State.setCauses]
    rw [slots_set_get]
    split
    · rename_i e
      subst e
      rfl
    · rfl
  | _ => exact doneCaused_of_same fun _ => rfl

theorem doneCaused_moderate {s x : State} {k : SlotNo} (h : DoneCaused s x k) : DoneCaused s (moderate s x) k := by
  constructor
  · rw [moderate_slots, moderate_status]
    exact h.entered
  · rw [moderate_slots, moderate_status]
    exact h.returned

/-- A grant of the tag allocator clears no cause. -/
theorem grows_tagGrant (s : State) : grows s.notice.status s.tagGrant.notice.status := by
  unfold State.tagGrant
  split
  · exact grows_refl _
  · split
    · rw [moderate_status]
      unfold State.grantRead
      split
      · rw [State.refuseHead_eq]
        exact grows_or _ _
      · split <;> exact grows_refl _
    · exact grows_refl _

theorem grows_grantsBefore (k : SlotNo) : ∀ (n : Nat) (s : State), grows s.notice.status (s.grantsBefore k n).notice.status
  | 0, s => grows_refl _
  | n + 1, s => by
    unfold State.grantsBefore
    split
    · exact grows_trans (grows_tagGrant s) (grows_grantsBefore k n _)
    · exact grows_refl _

/-- Settles O60: each change names the cause of every slot that it ends; only a teardown and power-on return a slot to IDLE, and they
clear every cause. -/
theorem entryIntoDoneSetsCause : Obligations.EntryIntoDoneSetsCause := by
  intro c s t k h
  obtain ⟨j, n, x, change, made⟩ := exec_makes h
  have caused : DoneCaused (s.grantsBefore j n) t k := by
    obtain rfl | rfl := made
    · exact doneCaused_change change k
    · exact doneCaused_moderate (doneCaused_change change k)
  obtain ⟨entered, returned⟩ := caused
  rw [State.grantsBefore_slots] at entered returned
  refine ⟨fun hs ht => ?_, returned⟩
  obtain ⟨hset, hgrows⟩ := entered hs ht
  exact ⟨hset, grows_trans (grows_grantsBefore j n s) hgrows⟩

/-! ### Power-on -/

theorem records_reset (i : GrantIdx) : State.reset.grants[i] = Record.initial := by
  simp [State.reset]

theorem ports_reset (p : PortNo) : State.reset.ports[p] = Port.initial := by
  simp [State.reset]

/-- Settles O59: no grant, no head access, no tag in use, no traffic and no submitted command. -/
theorem resetMeetsInvariants : Obligations.ResetMeetsInvariants := by
  have quiet := hostQuiet_reset
  have none : ∀ i : GrantIdx, State.reset.grants[i].grant = none := quiet.grants
  refine ⟨trafficAccounted_reset, ⟨fun i g hg => ?_, fun i _ _ g _ hg => ?_⟩, fun i => ?_, fun i g hg => ?_,
    fun i g hg => ?_, portsAccounted_initial rfl rfl, fun p => ?_, fun held => ?_, ⟨fun t => ?_, by decide⟩,
    ⟨by decide, by decide, fun t ht => ?_⟩, ?_, ?_, ?_⟩
  · exact absurd ((none i).symm.trans hg) (by simp)
  · exact absurd ((none i).symm.trans hg) (by simp)
  · rw [records_reset]
    decide
  · exact absurd ((none i).symm.trans hg) (by simp)
  · exact absurd ((none i).symm.trans hg) (by simp)
  · rw [ports_reset]
    exact faultGood_clear rfl rfl
  · cases held
  · rw [quiet.tags t]
    trivial
  · cases ht
  · exact (slotsSound_iff _).mpr (slotsGood_quiet quiet.slots quiet.grants)
  · exact (outboundSound_iff _).mpr (outboundGood_nil _)
  · exact (downIsQuiet_iff _).mpr fun _ => quiet

end Sys2Proof.Machine
end

section
/-! PROOF. The block, power-on, the link and teardown (R88, R165, R166, R168, R169, R172), and the card side: the probe of a
presented access and the grants of the arbiters (R70, R71, R97, R115 to R117). -/

namespace Sys2Proof.Machine

open Sys2Proof.Safety

/-! ### The block as a whole -/

/-- Settles O1: by the definition of `step` on a queue that is not empty. -/
theorem stepRunsFrontCommand : Obligations.StepRunsFrontCommand := by
  intro c rest s h
  unfold step
  rw [h]

theorem step_of_empty {s : State} (h : s.pending = []) : step s = .next s.tick := by
  unfold step
  rw [h]

/-- Settles O2: on an empty queue a step is a tick. -/
theorem emptyQueueLetsTimePass : Obligations.EmptyQueueLetsTimePass := by
  intro s h
  rw [step_of_empty h]
  exact ⟨fun due => by rw [State.tick_eq_of_due due], fun quiet => by rw [State.tick_eq_of_quiet quiet]⟩

/-! ### Power-on -/

theorem poweredOn_reset : PoweredOn State.reset where
  grants := records_reset
  expired := rfl
  ports := ports_reset
  tags := ⟨hostQuiet_reset.tags, rfl⟩
  queue := ⟨rfl, rfl⟩
  slots := hostQuiet_reset.slots
  order := rfl
  timing := rfl
  notice := rfl
  link := rfl

/-- Settles O4: POWER_ON gives the state in which the model starts, but for what it keeps. -/
theorem powerOnGivesDefaults : Obligations.PowerOnGivesDefaults := by
  refine ⟨poweredOn_reset, fun s => ⟨_, rfl, ?_, rfl, rfl, rfl, rfl⟩⟩
  obtain ⟨grants, expired, ports, tags, queue, slots, order, timing, notice, link⟩ := poweredOn_reset
  exact ⟨grants, expired, ports, tags, queue, slots, order, timing, notice, link⟩

/-! ### The link -/

/-- Settles O5: the branch that each event takes by the state of the link. -/
theorem trainingCreditAndLrstRelease : Obligations.TrainingCreditAndLrstRelease := by
  refine ⟨fun posted read s down => ?_, fun posted read s up => ?_, fun s => rfl⟩
  · exact congrArg Host.Outcome.next (if_neg (Bool.eq_false_iff.mp down))
  · exact congrArg Host.Outcome.next (if_pos up)

/-- Nothing of the host reaches the window in DOWN (R165). -/
theorem hostAccess_down {f : State → State} {s : State} (down : s.link.up = false) : hostAccess f s = .next s := by
  unfold hostAccess
  rw [if_neg (Bool.eq_false_iff.mp down)]

theorem execLinkLost_down {s : State} (down : s.link.up = false) : exec .linkLost s = .next s :=
  congrArg Host.Outcome.next (if_neg (Bool.eq_false_iff.mp down))

theorem execFunctionReset_down {s : State} (down : s.link.up = false) : exec .functionReset s = .next s :=
  congrArg Host.Outcome.next (if_neg (Bool.eq_false_iff.mp down))

theorem execCreditGrant_down {s : State} (down : s.link.up = false) (p r : Nat) : exec (.creditGrant p r) s = .next s :=
  congrArg Host.Outcome.next (if_neg (Bool.eq_false_iff.mp down))

theorem execCompletionPart_down {s : State} (down : s.link.up = false) (n : Nat) (x : Completion) :
    exec (.completionPart n x) s = .next s :=
  if_neg (Bool.eq_false_iff.mp down)

theorem execWriteLeaving_down {s : State} (down : s.link.up = false) : exec .writeLeaving s = .next s := by
  change execWriteLeaving s = _
  unfold execWriteLeaving
  split
  · rfl
  · rw [if_neg fun hc => absurd (down.symm.trans hc.1) (by simp)]

theorem execMemoryReadSend_down {s : State} (down : s.link.up = false) : exec .memoryReadSend s = .next s := by
  change execMemoryReadSend s = _
  unfold execMemoryReadSend
  split
  · rw [if_neg fun hc => absurd (down.symm.trans hc.1) (by simp)]
  · rfl

theorem execMessageSend_down {s : State} (down : s.link.up = false) (m : Bool) : exec (.messageSend m) s = .next s := by
  change execMessageSend m s = _
  unfold execMessageSend
  split
  · rw [if_neg (Bool.eq_false_iff.mp down)]
  · rfl

/-- Settles O7: each of these commands tests the link first. -/
theorem nothingReachesThePartWhileDown : Obligations.NothingReachesThePartWhileDown := by
  refine ⟨fun s c down hc => ?_, fun s p r up => congrArg Host.Outcome.next (if_pos up)⟩
  obtain rfl | rfl | rfl | ⟨p, r, rfl⟩ | ⟨n, x, rfl⟩ | window := hc
  · exact execLinkLost_down down
  · exact execLinkLost_down down
  · exact execFunctionReset_down down
  · exact execCreditGrant_down down p r
  · exact execCompletionPart_down down n x
  · obtain ⟨k, v, rfl⟩ | ⟨k, u, rfl⟩ | ⟨o, w, e, v, rfl⟩ | ⟨v, rfl⟩ | ⟨v, rfl⟩ | ⟨v, rfl⟩ | ⟨v, rfl⟩ | ⟨v, rfl⟩ | ⟨w, v, rfl⟩
      | sends := window
    iterate 9 exact hostAccess_down down
    obtain rfl | rfl | ⟨m, rfl⟩ := sends
    · exact execWriteLeaving_down down
    · exact execMemoryReadSend_down down
    · exact execMessageSend_down down m

/-- Settles O8: by the credit held. -/
theorem memoryReadSentOnCredit : Obligations.MemoryReadSentOnCredit := by
  intro s n a len rest up front
  have run : exec .memoryReadSend s = execMemoryReadSend s := rfl
  have credit : Config.readCredit = 1 := rfl
  rw [run]
  unfold execMemoryReadSend
  rw [front]
  dsimp only
  rw [credit]
  refine ⟨fun held => ?_, fun none => ?_⟩
  · rw [if_pos ⟨up, held⟩]
    rfl
  · rw [if_neg fun hc => by omega]

/-- Settles O9: by the enable, read or held, and by the credit held. -/
theorem messageSentOnCredit : Obligations.MessageSentOnCredit := by
  intro s rest up front
  have run : ∀ m, exec (.messageSend m) s = execMessageSend m s := fun _ => rfl
  have credit : Config.messageCredit = 2 := rfl
  refine ⟨fun off => ?_, fun m on => ⟨fun held => ?_, fun short => ?_⟩⟩ <;>
    rw [run] <;> unfold execMessageSend <;> rw [front] <;> dsimp only <;> rw [if_pos up]
  · rw [if_neg (by simp [off])]
  · rw [if_pos ((Bool.or_eq_true _ _).mpr on), credit, if_pos held]
    rfl
  · rw [if_pos ((Bool.or_eq_true _ _).mpr on), credit, if_neg (Nat.not_le.mpr short)]

/-! ### Teardown -/

/-- A requester's labels that end LINKDOWN: those of its reads that are not detached (R111). -/
theorem linkdownLabels_get (s : State) (p : PortNo) (l : Label) :
    (s.linkdownLabels p).getLsbD l.toNat = true ↔ ∃ n : TagNo, holdsLabel p l s.tags[n] = true := by
  have test : ∀ e : TagEntry, (match e with
      | .waiting r _ _ => r.requester == p && !r.detached && r.label.toNat == l.toNat
      | _ => false) = holdsLabel p l e := by
    intro e
    cases e with
    | free | parked => rfl
    | waiting r i u =>
      have same : (r.label.toNat == l.toNat) = (r.label == l) := by
        rw [Bool.eq_iff_iff, beq_iff_eq, beq_iff_eq]
        exact BitVec.toNat_inj
      simp only [holdsLabel, same]
  unfold State.linkdownLabels
  rw [getLsbD_maskOf, decide_eq_true (by omega), Bool.true_and, List.any_eq_true]
  constructor
  · rintro ⟨e, he, hl⟩
    obtain ⟨n, hn, rfl⟩ := Vector.mem_iff_getElem.mp (Vector.mem_toList_iff.mp he)
    exact ⟨⟨n, hn⟩, (test _).symm.trans hl⟩
  · rintro ⟨n, hn⟩
    exact ⟨s.tags[n], by simp, (test _).trans hn⟩

/-- What the requesters are answered at a teardown (R89, R111). -/
theorem mem_linkdownAnswers (s : State) (p : PortNo) (x : Answer) :
    (p, x) ∈ s.linkdownAnswers ↔ x = .linkdownEnds (s.linkdownLabels p) ∧ s.linkdownLabels p ≠ 0#8 := by
  unfold State.linkdownAnswers
  rw [List.mem_filterMap]
  constructor
  · rintro ⟨q, -, hq⟩
    split at hq
    · cases hq
    · rename_i hne
      cases hq
      exact ⟨rfl, hne⟩
  · rintro ⟨rfl, hne⟩
    exact ⟨p, List.mem_finRange p, if_neg hne⟩

theorem linkdownAnswers_ends (s : State) (p : PortNo) (l : Label) :
    (∃ labels, (p, Answer.linkdownEnds labels) ∈ s.linkdownAnswers ∧ labels.getLsbD l.toNat = true)
      ↔ ∃ n : TagNo, holdsLabel p l s.tags[n] = true := by
  rw [← linkdownLabels_get]
  constructor
  · rintro ⟨labels, hm, hl⟩
    obtain ⟨heq, -⟩ := (mem_linkdownAnswers s p _).mp hm
    cases heq
    exact hl
  · intro hl
    refine ⟨_, (mem_linkdownAnswers s p _).mpr ⟨rfl, fun hz => ?_⟩, hl⟩
    rw [hz] at hl
    simp at hl

/-- A teardown returns everything but the link interface to its defaults (R166). -/
theorem tornDown_teardown (s : State) : TornDown s s.teardown where
  grants i := by
    have hget : s.teardown.grants[i] = s.grants[i].tornDown := by simp [State.teardown]
    rw [hget, Record.tornDown_eq]
    by_cases h : s.grants[i].grant = none
    · rw [if_pos h, if_neg (by rw [h]; exact Bool.false_ne_true)]
    · rw [if_neg h, if_pos (Option.isSome_iff_ne_none.mpr h)]
  expired := rfl
  ports p := by
    have hget : s.teardown.ports[p] = Port.initial := by simp [State.teardown]
    exact hget
  tags := ⟨fun n => by simp [State.teardown], rfl⟩
  queue := ⟨rfl, rfl⟩
  slots k := by
    have hget : s.teardown.slots[k] = Slot.initial := by simp [State.teardown]
    exact hget
  order := rfl
  timing := rfl
  notice := rfl
  outbound := rfl
  answers := by
    refine ⟨s.linkdownAnswers, rfl, fun x hx => ?_, linkdownAnswers_ends s⟩
    exact ⟨_, ((mem_linkdownAnswers s x.1 x.2).mp hx).1⟩
  sent := s.teardown_sent
  lrst := s.teardown_lrst
  pending := s.teardown_pending

/-- So does the loss of the link. -/
theorem tornDown_leaveUp (s : State) : TornDown s s.leaveUp := by
  obtain ⟨grants, expired, ports, tags, queue, slots, order, timing, notice, outbound, answers, -⟩ :=
    tornDown_teardown s
  exact ⟨grants, expired, ports, tags, queue, slots, order, timing, notice, outbound, answers, s.leaveUp_sent, s.leaveUp_lrst,
    s.leaveUp_pending⟩

/-- Settles O6: LINK_LOST and HOT_RESET leave UP, FUNCTION_RESET stays in it. -/
theorem teardownReturnsDefaults : Obligations.TeardownReturnsDefaults := by
  intro s up
  have leaves : exec .linkLost s = .next s.leaveUp := congrArg Host.Outcome.next (if_pos up)
  have stays : exec .functionReset s = .next s.teardown := congrArg Host.Outcome.next (if_pos up)
  refine ⟨fun c hc => ⟨s.leaveUp, ?_, tornDown_leaveUp s, rfl⟩, s.teardown, stays, tornDown_teardown s, rfl⟩
  obtain rfl | rfl := hc
  · exact leaves
  · exact leaves

/-! ### The probe -/

/-- A change of the state that sets causes and touches nothing else of the notice unit, moderated. -/
theorem settles_setCauses {s x : State} (c : CauseSet) (h : x.notice = s.notice) : Settles s x c (moderate s (x.setCauses c)) := by
  refine moderate_settles ?_
  unfold State.setCauses
  rw [h]

theorem execPresentAccess_taken {s : State} {p : PortNo} (released : s.lrst = false) (absent : s.ports[p].head = none)
    (w : Presented) : exec (.presentAccess p w) s
      = .next (moderate s ((s.setPort p { s.ports[p] with head := some (wireAccess w) }).probeHead p (wireAccess w))) := by
  have run : exec (.presentAccess p w) s = execPresentAccess p w s := rfl
  rw [run]
  have taken : ¬ (s.lrst = true ∨ s.ports[p].head.isSome = true) := by
    rw [released, absent]
    simp
  unfold execPresentAccess
  rw [if_neg taken, wireAccess_eq]
  rfl

/-- Settles O11: the lookup of the probe passes, and sets nothing. -/
theorem passingProbeLeavesCandidate : Obligations.PassingProbeLeavesCandidate := by
  intro s p w i g released absent admitted
  rw [execPresentAccess_taken released absent, State.probeHead_passed (State.lookupAccess_admits admitted)]
  exact congrArg Host.Outcome.next (moderate_same rfl rfl rfl)

/-- Settles O12: the lookup of the probe refuses, and the port answers and captures as `portRefusing` says. -/
theorem refusedProbeAnswersAndCaptures : Obligations.RefusedProbeAnswersAndCaptures := by
  intro s p w r h released absent refused
  rw [execPresentAccess_taken released absent, State.probeHead_refused (State.lookupAccess_refuses refused)]
  exact ⟨_, rfl, settles_setCauses _ rfl⟩

/-! ### The arbiters -/

/-- The write arbiter grants the first eligible port, looking from the one after the last granted (R116). -/
theorem execWriteGrant_eq {s : State} {p : PortNo} {a : LocalAddr} {len : Nat} {data : List Byte}
    (first : firstAfter s.writeLast p (mayWrite s)) (head : s.ports[p].head = some (.write a len data)) :
    exec .writeGrant s = .next (moderate s (({ s with writeLast := p } : State).grantWrite p a len data)) := by
  have run : exec .writeGrant s = execWriteGrant s := rfl
  have found : (portsAfter s.writeLast).find? s.writeEligible = some p := by
    rw [funext (State.writeEligible_eq s)]
    exact find_portsAfter first
  rw [run]
  unfold execWriteGrant
  simp only [found, head]
  rfl

theorem Grant.counted_write (g : Grant) : g.counted .write = { g with
    cur := { g.cur with count := g.cur.count + 1 }
    lease := leaseUsed g.lease
    writeCount := min 4294967295 (g.writeCount + 1) } := by
  rw [← Lease.used_eq]
  rfl

theorem State.grantWrite_admits {s : State} {p : PortNo} {a : LocalAddr} {len : Nat} {data : List Byte} {i : GrantIdx}
    {g : Grant} (h : admits s p (.write a len data) i g) :
    s.grantWrite p a len data = s.acceptWrite p len data i g g.cur.number (hostOf g a) := by
  unfold State.grantWrite
  rw [State.lookupAccess_admits h]
  obtain ⟨-, -, ⟨hg, -⟩, -⟩ := h
  simp only [hg]
  rfl

/-- The acceptance of a write sets no cause, so it is not moderated (R156, R157). -/
theorem moderate_acceptWrite (s : State) (p q : PortNo) (len : Nat) (data : List Byte) (i : GrantIdx) (g : Grant) (k : GenNo)
    (host : HostAddr) :
    moderate s (({ s with writeLast := q } : State).acceptWrite p len data i g k host)
      = ({ s with writeLast := q } : State).acceptWrite p len data i g k host :=
  moderate_same rfl rfl rfl

/-- Settles O14: the lookup at the grant passes, and the write joins the queue with its effects; no cause is set. -/
theorem writeGrantAcceptsWrite : Obligations.WriteGrantAcceptsWrite := by
  intro s p a len data i g first head admitted
  have accepted := State.grantWrite_admits (s := { s with writeLast := p }) admitted
  rw [execWriteGrant_eq first head, accepted, moderate_acceptWrite, State.acceptWrite, Grant.counted_write]
  rfl

/-- A tag is FREE where a read may be granted (R94). -/
theorem exists_lowestTag {s : State} {p : PortNo} (h : mayRead s p = true) : ∃ n, s.lowestFreeTag = some n := by
  rw [← State.readEligible_eq] at h
  unfold State.readEligible at h
  simp only [Bool.and_eq_true] at h
  exact Option.isSome_iff_exists.mp h.2

theorem execTagGrant_eq {s : State} {p : PortNo} {a : LocalAddr} {len : Nat} {l : Label}
    (first : firstAfter s.tagLast p (mayRead s)) (head : s.ports[p].head = some (.read a len l)) :
    ∃ n, exec .tagGrant s = .next (moderate s (({ s with tagLast := p } : State).grantRead p n a len l)) := by
  obtain ⟨n, hn⟩ := exists_lowestTag first.1
  have found : (portsAfter s.tagLast).find? s.readEligible = some p := by
    rw [funext (State.readEligible_eq s)]
    exact find_portsAfter first
  refine ⟨n, congrArg Host.Outcome.next ?_⟩
  unfold State.tagGrant
  simp only [found, head, hn]

theorem settles_refuseHead {s x : State} (p : PortNo) (a : Access) (r : Result) (h : Option Handle)
    (ports : x.ports = s.ports) (notice : x.notice = s.notice) :
    Settles s { x with
        ports := s.ports.set p (portRefusing s.ports[p] a r h)
        answers := x.answers ++ [(p, Safety.refusalAnswer a r)] }
      (refusalCause s.ports[p] p r) (moderate s (x.refuseHead p a r h)) := by
  refine moderate_settles ?_
  rw [State.refuseHead_eq, ports, notice]

/-- Settles O15: the lookup at the grant refuses, after the turn is used. -/
theorem refusedGrantUsesTurn : Obligations.RefusedGrantUsesTurn := by
  intro s p a r h head refused
  cases a with
  | read addr len l =>
    refine ⟨fun _ first => ?_, (fun hk => by cases hk)⟩
    obtain ⟨n, run⟩ := execTagGrant_eq first head
    have looked : ({ s with tagLast := p } : State).lookupAccess p (.read addr len l) = .refuse r h :=
      State.lookupAccess_refuses refused
    refine ⟨_, run, ?_⟩
    unfold State.grantRead
    rw [looked]
    exact settles_refuseHead (x := { s with tagLast := p }) p _ r h rfl rfl
  | write addr len data =>
    refine ⟨(fun hk => by cases hk), fun _ first => ?_⟩
    have looked : ({ s with writeLast := p } : State).lookupAccess p (.write addr len data) = .refuse r h :=
      State.lookupAccess_refuses refused
    refine ⟨_, execWriteGrant_eq first head, ?_⟩
    unfold State.grantWrite
    rw [looked]
    exact settles_refuseHead (x := { s with writeLast := p }) p _ r h rfl rfl

end Sys2Proof.Machine
end

section
/-! PROOF. The read unit and the timers (R56, R100, R105, R158, R159), and the events that cannot be taken (R54, R65, R88, R94, R105,
R107, R115, R118, R141, R143, R159, R169). -/

namespace Sys2Proof.Machine

open Sys2Proof.Safety

/-! ### The read unit -/

/-- A part that leaves its read unfinished adds its bytes (R100). -/
theorem State.partOnWaiting_unfinished {r : ReadInfo} {data : List Byte} (bytes : 1 ≤ data.length)
    (unfinished : r.received + data.length < r.length) (n : TagNo) (i u : Nat) (s : State) :
    s.partOnWaiting n r i u (.success data) = s.takeBytes n r i u data := by
  unfold State.partOnWaiting
  dsimp only
  rw [if_neg (by omega), if_neg (by omega)]

/-- Settles O17: the part fits and leaves bytes to come, so its bytes are taken and no cause is set. -/
theorem unfinishedPartGivesBeat : Obligations.UnfinishedPartGivesBeat := by
  intro s n r i u data up tag bytes small unfinished
  rw [exec_completionPart_tag up, State.takePart_waiting tag, partOf_success small,
    State.partOnWaiting_unfinished bytes unfinished, State.takeBytes_eq]
  exact congrArg Host.Outcome.next (moderate_same rfl rfl rfl)

/-- Settles O21: the deadline retires the read as any failure does, and leaves the tag PARKED. -/
theorem deadlineParksTag : Obligations.DeadlineParksTag := by
  intro s n r i g base tag grant live
  have run : exec (.deadlineExpiry n) s = .next (moderate s (s.retire n r .timeout (.parked i (i * 100)))) := by
    change execDeadlineExpiry n s = _
    unfold execDeadlineExpiry
    rw [tag]
    rfl
  refine ⟨_, run, moderate_settles ?_⟩
  rw [State.retire_fault (by decide) grant live]

/-! ### Leases -/

/-- Settles O22: a running lease is due exactly when its remaining time is 0. -/
theorem leaseExpiryClosesGrant : Obligations.LeaseExpiryClosesGrant := by
  intro s i g kind p u grant opened lease
  constructor
  · rintro rfl
    exact ⟨_, execLeaseExpiry_due grant opened lease, settles_setCauses _ rfl⟩
  · intro left
    refine execLeaseExpiry_idle fun g' grant' => Bool.eq_false_iff.mpr fun due => ?_
    cases grant.symm.trans grant'
    obtain ⟨-, kind', p', lease'⟩ := g.leaseDue_iff.mp due
    cases lease.symm.trans lease'
    exact left rfl

/-! ### The holdoff timer -/

theorem execHoldoffExpiry_due {s : State} (due : s.notice.holdoffTimer = some 0) :
    exec .holdoffExpiry s = .next (if 1 ≤ s.notice.eventCount
      then ({ s with notice := { s.notice with holdoffTimer := none } } : State).sendAttempt
      else { s with notice := { s.notice with holdoffTimer := none } }) := by
  change execHoldoffExpiry s = _
  unfold execHoldoffExpiry
  rw [due]
  rfl

/-- Settles O23: the send attempt is made with the timer stopped. -/
theorem holdoffExpiryAttempts : Obligations.HoldoffExpiryAttempts := by
  intro s due
  rw [execHoldoffExpiry_due due]
  refine ⟨fun none => ?_, fun counted on => ?_⟩
  · obtain zero | off := none
    · rw [if_neg (by omega)]
    · rw [State.sendAttempt_off (s := { s with notice := { s.notice with holdoffTimer := .none } }) off, ite_self]
  · rw [if_pos counted, State.sendAttempt_on (s := { s with notice := { s.notice with holdoffTimer := none } }) on]
    simp only [on]

/-! ### Events that cannot be taken -/

theorem execPresentAccess_shut {s : State} {p : PortNo} (h : s.lrst = true ∨ s.ports[p].head ≠ none) (w : Presented) :
    exec (.presentAccess p w) s = .next s :=
  if_pos (h.imp_right Option.isSome_iff_ne_none.mpr)

theorem execTagGrant_none {s : State} (h : ∀ p, mayRead s p = false) : exec .tagGrant s = .next s := by
  have found : (portsAfter s.tagLast).find? s.readEligible = none :=
    find_portsAfter_none fun p => (State.readEligible_eq s p).trans (h p)
  refine congrArg Host.Outcome.next ?_
  unfold State.tagGrant
  rw [found]

theorem execWriteGrant_none {s : State} (h : ∀ p, mayWrite s p = false) : exec .writeGrant s = .next s := by
  have found : (portsAfter s.writeLast).find? s.writeEligible = none :=
    find_portsAfter_none fun p => (State.writeEligible_eq s p).trans (h p)
  change execWriteGrant s = _
  unfold execWriteGrant
  rw [found]

theorem execLeaseExpiry_running {s : State} {i : GrantIdx} (h : ∀ g, s.grants[i].grant = some g →
    g.phase.isClosing = true ∨ g.lease = .untimed ∨ ∃ k p u, g.lease = .timed k p (u + 1)) :
    exec (.leaseExpiry i) s = .next s := by
  refine execLeaseExpiry_idle fun g hg => Bool.eq_false_iff.mpr fun due => ?_
  obtain ⟨opened, kind, p, lease⟩ := g.leaseDue_iff.mp due
  obtain closing | untimed | ⟨k, p', u, left⟩ := h g hg
  · cases closing.symm.trans opened
  · cases untimed.symm.trans lease
  · cases left.symm.trans lease

theorem execDeadlineExpiry_running {s : State} {n : TagNo} (h : ∀ r i, s.tags[n] ≠ .waiting r i 0) :
    exec (.deadlineExpiry n) s = .next s := by
  change execDeadlineExpiry n s = _
  unfold execDeadlineExpiry
  split
  · rename_i tag
    exact absurd tag (h _ _)
  · rfl

theorem execParkPeriodEnd_running {s : State} {n : TagNo} (h : ∀ i, s.tags[n] ≠ .parked i 0) :
    exec (.parkPeriodEnd n) s = .next s := by
  change execParkPeriodEnd n s = _
  unfold execParkPeriodEnd
  split
  · rename_i tag
    exact absurd tag (h _)
  · rfl

theorem execHoldoffExpiry_running {s : State} (h : s.notice.holdoffTimer ≠ some 0) : exec .holdoffExpiry s = .next s := by
  change execHoldoffExpiry s = _
  unfold execHoldoffExpiry
  split
  · rename_i due
    exact absurd due h
  · rfl

theorem execWriteLeaving_empty {s : State} (h : s.queue = []) : exec .writeLeaving s = .next s := by
  change execWriteLeaving s = _
  unfold execWriteLeaving
  rw [h]

theorem execMemoryReadSend_other {s : State} (h : ∀ n a len rest, s.link.outbound ≠ .memRead n a len :: rest) :
    exec .memoryReadSend s = .next s := by
  change execMemoryReadSend s = _
  unfold execMemoryReadSend
  split
  · rename_i front
    exact absurd front (h _ _ _ _)
  · rfl

theorem execMessageSend_other {s : State} (h : ∀ rest, s.link.outbound ≠ .message :: rest) (m : Bool) :
    exec (.messageSend m) s = .next s := by
  change execMessageSend m s = _
  unfold execMessageSend
  split
  · rename_i front
    exact absurd front (h _)
  · rfl

/-- The engine executes the row of the slot at its front and no other (R141). -/
theorem engine_other {isRow : BitVec 16 → Bool} {cmd : SlotNo → State → State} {s : State}
    (h : ∀ k rest, s.order = k :: rest → isRow s.slots[k].opcode = false) : engine isRow cmd s = .next s := by
  unfold engine
  split
  · rfl
  · rename_i k rest front
    rw [if_neg (Bool.eq_false_iff.mp (h k rest front))]

/-- With no opcode of its own at the front, a SET-REQUESTER has no grants before it either. -/
theorem State.limitMeetsEligible_opcode {s : State} {k : SlotNo} (h : s.limitMeetsEligible k = true) :
    s.slots[k].opcode = 0x0008#16 := by
  unfold State.limitMeetsEligible at h
  simp only [Bool.and_eq_true, beq_iff_eq] at h
  obtain ⟨⟨⟨⟨opcode, -⟩, -⟩, -⟩, -⟩ := h
  exact opcode

theorem execSetRequester_other {s : State} (h : ∀ k rest, s.order = k :: rest → s.slots[k].opcode ≠ 0x0008#16) :
    exec .setRequester s = .next s := by
  have other : ∀ k rest, s.order = k :: rest → (s.slots[k].opcode == 0x0008#16) = false :=
    fun k rest front => beq_false_of_ne (h k rest front)
  change execSetRequester s = _
  unfold execSetRequester
  split
  · exact engine_other other
  · rename_i k rest front
    have none : s.grantsBefore k 8 = s := by
      rw [State.grantsBefore_eq, if_neg fun meets => h k rest front (State.limitMeetsEligible_opcode meets)]
    rw [none]
    exact engine_other other

/-- The row of each command of the engine but SET-REQUESTER. -/
theorem exec_otherRow {c : Instr} {op : BitVec 16} {s : State}
    (row : (c, op) ∈ [(Instr.openGrant, 0x0001#16), (.modify, 0x0002#16), (.close, 0x0003#16), (.renew, 0x0004#16),
      (.query, 0x0005#16), (.lookup, 0x0006#16), (.fence, 0x0007#16), (.setRequester, 0x0008#16),
      (.queryRequester, 0x0009#16), (.resume, 0x000A#16), (.resetRequester, 0x000B#16), (.setTiming, 0x000C#16)])
    (h : ∀ k rest, s.order = k :: rest → s.slots[k].opcode ≠ op) : exec c s = .next s := by
  have other : ∀ cmd, engine (· == op) cmd s = .next s :=
    fun cmd => engine_other fun k rest front => beq_false_of_ne (h k rest front)
  simp only [List.mem_cons, Prod.mk.injEq, List.not_mem_nil, or_false] at row
  obtain ⟨rfl, rfl⟩ | ⟨rfl, rfl⟩ | ⟨rfl, rfl⟩ | ⟨rfl, rfl⟩ | ⟨rfl, rfl⟩ | ⟨rfl, rfl⟩ | ⟨rfl, rfl⟩ | ⟨rfl, rfl⟩ | ⟨rfl, rfl⟩
    | ⟨rfl, rfl⟩ | ⟨rfl, rfl⟩ | ⟨rfl, rfl⟩ := row
  · exact other cmdOpen
  · exact other cmdModify
  · exact other cmdClose
  · exact other cmdRenew
  · exact other cmdQuery
  · exact other cmdLookup
  · exact other cmdFence
  · exact execSetRequester_other h
  · exact other cmdQueryRequester
  · exact other cmdResume
  · exact other cmdResetRequester
  · exact other cmdSetTiming

/-- Each opcode from 1 to 12 names a command (R143). -/
theorem namesNoCommand_eq_false {op : BitVec 16} (h : 0x0001#16 ≤ op) (h' : op ≤ 0x000C#16) : namesNoCommand op = false := by
  unfold namesNoCommand
  simp
  bv_omega

/-- Settles O42: each command finds that the event it names is not there. -/
theorem eventsOutOfPlaceChangeNothing : Obligations.EventsOutOfPlaceChangeNothing := by
  intro s
  exact ⟨fun p w h => execPresentAccess_shut h w, execTagGrant_none, execWriteGrant_none, fun i => execLeaseExpiry_running,
    fun n => execDeadlineExpiry_running, fun n => execParkPeriodEnd_running, execHoldoffExpiry_running, execWriteLeaving_empty,
    execMemoryReadSend_other, execMessageSend_other,
    fun h => engine_other fun k rest front => namesNoCommand_eq_false (h k rest front).1 (h k rest front).2,
    fun c op row => exec_otherRow row⟩

end Sys2Proof.Machine
end

section
/-! PROOF. The host window: writes of slots (R130, R135, R138 to R140), the master enable word (R160), the expired set (R58, R59, R62)
and reads (R167, R176, R177). -/

namespace Sys2Proof.Machine

open Sys2Proof.Safety

/-! ### Slots -/

theorem exec_submission_up {s : State} (up : s.link.up = true) (k : SlotNo) (v : Word) :
    exec (.submission k v) s = .next (moderate s (s.writeSubmit k v)) :=
  hostAccess_up up _

theorem exec_cancel_up {s : State} (up : s.link.up = true) (k : SlotNo) (u : BitVec 16) :
    exec (.cancel k u) s = .next (moderate s (s.writeSubmit k (u ++ Config.cancelCode))) :=
  hostAccess_up up _

/-- A write of a whole word is taken (R167). -/
theorem exec_hostWindowWrite_up {s : State} (up : s.link.up = true) {o : BitVec 14} (aligned : o.toNat % 4 = 0) (v : Word) :
    exec (.hostWindowWrite o 4 0xF#4 v) s = .next (moderate s (s.writeWord o v)) := by
  have taken : writeTaken o 4 0xF#4 = true := by simp [writeTaken, aligned]
  have run : exec (.hostWindowWrite o 4 0xF#4 v) s
      = hostAccess (fun s => if writeTaken o 4 0xF#4 then s.writeWord o v else s) s := rfl
  rw [run, hostAccess_up up, taken]
  rfl

/-- A write that is not of one whole word has no effect (R167). -/
theorem exec_hostWindowWrite_untaken {o : BitVec 14} {w : Nat} {e : BitVec 4} (h : o.toNat % 4 ≠ 0 ∨ w ≠ 4 ∨ e ≠ 0xF#4)
    (v : Word) (s : State) : exec (.hostWindowWrite o w e v) s = .next s := by
  have untaken : writeTaken o w e = false := by
    unfold writeTaken
    simp only [Bool.and_eq_false_iff, beq_eq_false_iff_ne]
    tauto
  exact hostAccess_idle (f := fun s => if writeTaken o w e then s.writeWord o v else s) (by rw [untaken]; rfl)

/-- A write of argument word `n` of slot `k` goes to the slot (R135, R176). -/
theorem State.writeWord_arg {k : SlotNo} {n : Fin 28} {o : BitVec 14} (h : o.toNat = 0x1000 + 0x100 * k.val + 0x10 + 4 * n.val)
    (v : Word) (s : State) : s.writeWord o v = s.writeArg k n.val v := by
  obtain ⟨slot, rel⟩ := slotOfOffset_eq k o (0x10 + 4 * n.val) (by omega) (by omega)
  have number : (0x10 + 4 * n.val - 0x10) / 4 = n.val := by omega
  unfold State.writeWord
  dsimp only
  rw [slot]
  dsimp only
  rw [rel, if_neg (by omega), if_pos (by omega), number]

theorem exec_writeArg_up {s : State} (up : s.link.up = true) {k : SlotNo} {n : Fin 28} {o : BitVec 14}
    (h : o.toNat = 0x1000 + 0x100 * k.val + 0x10 + 4 * n.val) (v : Word) :
    exec (.hostWindowWrite o 4 0xF#4 v) s = .next (moderate s (s.writeArg k n.val v)) := by
  rw [exec_hostWindowWrite_up up (by omega), State.writeWord_arg h]

theorem setIfInBounds_eq_set (args : Vector Word 28) (n : Fin 28) (v : Word) :
    args.setIfInBounds n.val v = args.set n v := by
  ext i hi
  simp [Vector.getElem_setIfInBounds, Vector.getElem_set]

/-- Settles O43: a free slot takes both writes, and neither sets a cause. -/
theorem freeSlotTakesWrites : Obligations.FreeSlotTakesWrites := by
  intro s k v up free
  have idle : ¬ s.slots[k].busy = true := fun hb => free ((Slot.busy_iff _).mp hb)
  refine ⟨fun op => ?_, fun n o ho => ?_⟩
  · have submits : s.writeSubmit k v = s.submit k (v.extractLsb' 0 16) := by
      have other : v.extractLsb' 0 16 ≠ Config.cancelCode := op
      unfold State.writeSubmit
      rw [if_neg other, if_neg idle]
    rw [exec_submission_up up, submits]
    exact congrArg Host.Outcome.next (moderate_same rfl rfl rfl)
  · have writes : s.writeArg k n.val v
        = { s with slots := s.slots.set k { s.slots[k] with args := s.slots[k].args.set n v } } := by
      unfold State.writeArg
      rw [if_neg idle, setIfInBounds_eq_set]
      rfl
    rw [exec_writeArg_up up ho, writes]
    exact congrArg Host.Outcome.next (moderate_same rfl rfl rfl)

/-- Settles O44: the CANCEL code, under any upper bits, ends a waiting FENCE. -/
theorem cancelEndsWaitingFence : Obligations.CancelEndsWaitingFence := by
  intro s k u up waits
  have ends : s.writeSubmit k (u ++ Config.cancelCode) = s.endSlot k .cancelled := by
    unfold State.writeSubmit
    rw [if_pos (cancelCode_word u), if_pos ⟨waits.1, Option.isSome_iff_ne_none.mpr waits.2⟩]
  exact ⟨_, exec_cancel_up up k u, moderate_settles (by rw [ends, State.endSlot_eq])⟩

/-- A collision is recorded in the slot and as a cause (R139). -/
theorem settles_collide (s : State) (k : SlotNo) :
    Settles s { s with slots := s.slots.set k { s.slots[k] with collided := true } } 0x2000#15 (moderate s (s.collide k)) :=
  moderate_settles (State.collide_eq k s)

/-- Settles O45: each write that a slot does not take is a collision; a write of a read-only word, at an undefined offset or not
taken reaches no slot. -/
theorem collisionsAreRecorded : Obligations.CollisionsAreRecorded := by
  intro s k c v up
  constructor
  · rintro (⟨busy, op, rfl⟩ | ⟨busy, n, o, ho, rfl⟩ | ⟨unfenced, u, rfl⟩)
    · have collides : s.writeSubmit k v = s.collide k := by
        have other : v.extractLsb' 0 16 ≠ Config.cancelCode := op
        unfold State.writeSubmit
        rw [if_neg other, if_pos ((Slot.busy_iff _).mpr busy)]
      exact ⟨_, exec_submission_up up k v, collides ▸ settles_collide s k⟩
    · have collides : s.writeArg k n.val v = s.collide k := by
        unfold State.writeArg
        rw [if_pos ((Slot.busy_iff _).mpr busy)]
      exact ⟨_, exec_writeArg_up up ho v, collides ▸ settles_collide s k⟩
    · have collides : s.writeSubmit k (u ++ Config.cancelCode) = s.collide k := by
        unfold State.writeSubmit
        rw [if_pos (cancelCode_word u), if_neg fun hw => unfenced ⟨hw.1, Option.isSome_iff_ne_none.mp hw.2⟩]
      exact ⟨_, exec_cancel_up up k u, collides ▸ settles_collide s k⟩
  · rintro (⟨o, w, e, readOnly, rfl⟩ | ⟨o, w, e, undefined, rfl⟩ | ⟨o, w, e, untaken, rfl⟩)
    · exact exec_hostWindowWrite_idle (.inl readOnly) w e v s
    · exact exec_hostWindowWrite_idle (.inr undefined) w e v s
    · exact exec_hostWindowWrite_untaken untaken v s

/-! ### The master enable word -/

theorem exec_masterEnable_up {s : State} (up : s.link.up = true) (v : Word) :
    exec (.masterEnable v) s = .next (moderate s (s.writeMasterEnable v)) :=
  hostAccess_up up _

/-- A write of the master enable word sets no cause, so it is not moderated (R157, R160). -/
theorem moderate_writeMasterEnable (s : State) (v : Word) : moderate s (s.writeMasterEnable v) = s.writeMasterEnable v := by
  unfold State.writeMasterEnable
  dsimp only
  split
  · rename_i attempt
    rw [State.sendAttempt_on attempt.2.1]
    exact moderate_same rfl rfl rfl
  · exact moderate_same rfl rfl rfl

/-- Settles O48: the four conditions of a send attempt are those of the statement. -/
theorem masterEnableWord : Obligations.MasterEnableWord := by
  intro s v up
  refine ⟨?_, fun on was pending counted => ?_, fun no => ?_⟩
  · have read : s.readWord 0x0118#14 = flag 0 s.notice.masterEnable := rfl
    rw [State.hostRead_up up rfl, read]
    cases s.notice.masterEnable <;> rfl
  · rw [exec_masterEnable_up up, moderate_writeMasterEnable]
    unfold State.writeMasterEnable
    dsimp only
    rw [if_pos ⟨by rw [was]; rfl, on, pending, counted⟩, State.sendAttempt_on on]
    simp only [pending, false_or]
  · rw [exec_masterEnable_up up, moderate_writeMasterEnable]
    unfold State.writeMasterEnable
    dsimp only
    rw [if_neg]
    rintro ⟨was, on, pending, counted⟩
    obtain off | held | empty | zero := no
    · cases on.symm.trans off
    · rw [held] at was
      cases was
    · exact pending empty
    · omega

/-! ### The expired set -/

/-- An outcome leaves the expired set as it was. -/
def keepsExpired (s : State) (o : Host.Outcome State Fault Refusal) : Prop :=
  ∀ t, o = .next t → t.expired = s.expired

theorem keepsExpired_next {s x : State} (h : x.expired = s.expired) : keepsExpired s (.next x) := by
  rintro t ⟨⟩
  exact h

theorem keepsExpired_answerNext {s x : State} (h : x.expired = s.expired) : keepsExpired s (answerNext s x) :=
  keepsExpired_next ((moderate_expired s x).trans h)

theorem keepsExpired_hostAccess {f : State → State} {s : State} (h : (f s).expired = s.expired) :
    keepsExpired s (hostAccess f s) := by
  unfold hostAccess
  split
  · exact keepsExpired_answerNext h
  · exact keepsExpired_next rfl

theorem keepsExpired_engine {isRow : BitVec 16 → Bool} {cmd : SlotNo → State → State} {s : State}
    (h : ∀ k x, (cmd k x).expired = x.expired) : keepsExpired s (engine isRow cmd s) := by
  unfold engine
  split
  · exact keepsExpired_next rfl
  · split
    · exact keepsExpired_answerNext (h _ _)
    · exact keepsExpired_next rfl

theorem State.tagGrant_expired (s : State) : s.tagGrant.expired = s.expired := by
  unfold State.tagGrant
  split
  · rfl
  · split
    · simp
    · rfl

theorem State.grantsBefore_expired (k : SlotNo) : ∀ (n : Nat) (s : State), (s.grantsBefore k n).expired = s.expired
  | 0, _ => rfl
  | n + 1, s => by
    unfold State.grantsBefore
    split
    · exact (State.grantsBefore_expired k n _).trans s.tagGrant_expired
    · rfl

theorem keepsExpired_setRequester (s : State) : keepsExpired s (execSetRequester s) := by
  have before : ∀ {o u}, u.expired = s.expired → keepsExpired u o → keepsExpired s o :=
    fun hu ho t ht => (ho t ht).trans hu
  unfold execSetRequester
  split
  · exact keepsExpired_engine cmdSetRequester_expired
  · exact before (State.grantsBefore_expired _ _ s) (keepsExpired_engine cmdSetRequester_expired)

theorem keepsExpired_presentAccess (p : PortNo) (a : Presented) (s : State) : keepsExpired s (execPresentAccess p a s) := by
  unfold execPresentAccess
  split
  · exact keepsExpired_next rfl
  · exact keepsExpired_answerNext (by simp)

theorem keepsExpired_writeGrant (s : State) : keepsExpired s (execWriteGrant s) := by
  unfold execWriteGrant
  split
  · exact keepsExpired_next rfl
  · split
    · exact keepsExpired_answerNext (by simp)
    · exact keepsExpired_next rfl

theorem keepsExpired_writeLeaving (s : State) : keepsExpired s (execWriteLeaving s) := by
  unfold execWriteLeaving
  split
  · exact keepsExpired_next rfl
  · split
    · exact keepsExpired_answerNext (by simp)
    · exact keepsExpired_next rfl

theorem keepsExpired_completionPart (n : Nat) (c : Completion) (s : State) : keepsExpired s (execCompletionPart n c s) := by
  unfold execCompletionPart
  split
  · refine keepsExpired_answerNext ?_
    split <;> simp
  · exact keepsExpired_next rfl

theorem keepsExpired_deadlineExpiry (n : TagNo) (s : State) : keepsExpired s (execDeadlineExpiry n s) := by
  unfold execDeadlineExpiry
  split
  · exact keepsExpired_answerNext (by simp)
  · exact keepsExpired_next rfl

theorem keepsExpired_parkPeriodEnd (n : TagNo) (s : State) : keepsExpired s (execParkPeriodEnd n s) := by
  unfold execParkPeriodEnd
  split
  · exact keepsExpired_next rfl
  · exact keepsExpired_next rfl

theorem keepsExpired_holdoffExpiry (s : State) : keepsExpired s (execHoldoffExpiry s) := by
  unfold execHoldoffExpiry
  split
  · refine keepsExpired_next ?_
    split
    · exact State.sendAttempt_expired _
    · rfl
  · exact keepsExpired_next rfl

theorem keepsExpired_memoryReadSend (s : State) : keepsExpired s (execMemoryReadSend s) := by
  refine keepsExpired_next ?_
  split
  · split <;> rfl
  · rfl

theorem keepsExpired_messageSend (m : Bool) (s : State) : keepsExpired s (execMessageSend m s) := by
  refine keepsExpired_next ?_
  split
  · split
    · split
      · split <;> rfl
      · rfl
    · rfl
  · rfl

/-- A write of a word that has no row of its own reaches the expired set never (R176). -/
theorem State.writeWord_expired {o : BitVec 14} (h : hasOwnRow o = false) (v : Word) (s : State) :
    (s.writeWord o v).expired = s.expired := by
  have first : o.toNat ≠ 0x0200 := fun e => by simp [hasOwnRow, e] at h
  have second : o.toNat ≠ 0x0204 := fun e => by simp [hasOwnRow, e] at h
  unfold State.writeWord
  dsimp only
  split
  · split
    · exact State.writeSubmit_expired _ _ _
    · split
      · exact State.writeArg_expired _ _ _ _
      · rfl
  · rw [if_neg first, if_neg second]
    repeat' split
    all_goals simp

theorem keepsExpired_hostWindowWrite {o : BitVec 14} {w : Nat} {e : BitVec 4} {v : Word}
    (h : (Instr.hostWindowWrite o w e v).wellFormed = true) (s : State) : keepsExpired s (execHostWindowWrite o w e v s) := by
  refine keepsExpired_hostAccess ?_
  split
  · rename_i taken
    refine State.writeWord_expired ?_ v s
    simp only [Instr.wellFormed, taken, Bool.true_and, Bool.and_eq_true, Bool.not_eq_true'] at h
    exact h.2
  · rfl

theorem keepsExpired_leaseExpiry {s : State} {i : GrantIdx} (h : ∀ g, s.grants[i].grant = some g → g.leaseDue = false) :
    keepsExpired s (execLeaseExpiry i s) := by
  rw [execLeaseExpiry_idle h]
  exact keepsExpired_next rfl

/-- A command that changes the expired set is an expiry, a host write of the set, or a teardown or power-on (R58, R59, R62). -/
theorem expired_changed {c : Instr} {s t : State} (h : exec c s = .next t) (formed : c.wellFormed = true)
    (changed : t.expired ≠ s.expired) :
    (∃ i, c = .leaseExpiry i ∧ ∃ g, s.grants[i].grant = some g ∧ g.phase.isClosing = false
          ∧ ∃ k p, g.lease = .timed k p 0)
      ∨ (s.link.up = true ∧ ∃ w v, c = .expiredSetClear w v)
      ∨ (t.expired = 0#64 ∧ (c = .powerOn ∨ (s.link.up = true
          ∧ (c = .linkLost ∨ c = .hotReset ∨ c = .functionReset)))) := by
  have kept : ¬ keepsExpired s (exec c s) := fun hk => changed (hk t h)
  have closes : ∀ x : State, x.expired = 0#64 → (.next (if s.link.up then x else s) : Host.Outcome State Fault Refusal) = .next t →
      t.expired = 0#64 ∧ s.link.up = true := by
    rintro x hx ⟨⟩
    by_cases up : s.link.up = true
    · rw [if_pos up]
      exact ⟨hx, up⟩
    · rw [if_neg up] at changed
      exact absurd rfl changed
  cases c with dsimp only [exec] at h kept
  | powerOn =>
    cases h
    exact .inr (.inr ⟨rfl, .inl rfl⟩)
  | linkLost =>
    obtain ⟨hz, up⟩ := closes s.leaveUp rfl h
    exact .inr (.inr ⟨hz, .inr ⟨up, .inl rfl⟩⟩)
  | hotReset =>
    obtain ⟨hz, up⟩ := closes s.leaveUp rfl h
    exact .inr (.inr ⟨hz, .inr ⟨up, .inr (.inl rfl)⟩⟩)
  | functionReset =>
    obtain ⟨hz, up⟩ := closes s.teardown rfl h
    exact .inr (.inr ⟨hz, .inr ⟨up, .inr (.inr rfl)⟩⟩)
  | expiredSetClear w v =>
    refine .inr (.inl ⟨?_, w, v, rfl⟩)
    by_contra down
    have idle : execExpiredSetClear w v s = .next s := hostAccess_down (Bool.eq_false_iff.mpr down)
    rw [idle] at kept
    exact kept (keepsExpired_next rfl)
  | leaseExpiry i =>
    refine .inl ⟨i, rfl, ?_⟩
    by_contra none
    refine kept (keepsExpired_leaseExpiry fun g grant => Bool.eq_false_iff.mpr fun due => none ?_)
    exact ⟨g, grant, g.leaseDue_iff.mp due⟩
  | trainingComplete | creditGrant =>
    refine absurd (keepsExpired_next ?_) kept
    split <;> rfl
  | lrstAssertion => exact absurd (keepsExpired_next (by rw [State.cleanEvery_eq])) kept
  | lrstDeassertion => exact absurd (keepsExpired_next rfl) kept
  | presentAccess p a => exact absurd (keepsExpired_presentAccess p a s) kept
  | tagGrant => exact absurd (keepsExpired_next s.tagGrant_expired) kept
  | writeGrant => exact absurd (keepsExpired_writeGrant s) kept
  | writeLeaving => exact absurd (keepsExpired_writeLeaving s) kept
  | memoryReadSend => exact absurd (keepsExpired_memoryReadSend s) kept
  | completionPart n x => exact absurd (keepsExpired_completionPart n x s) kept
  | deadlineExpiry n => exact absurd (keepsExpired_deadlineExpiry n s) kept
  | parkPeriodEnd n => exact absurd (keepsExpired_parkPeriodEnd n s) kept
  | holdoffExpiry => exact absurd (keepsExpired_holdoffExpiry s) kept
  | messageSend m => exact absurd (keepsExpired_messageSend m s) kept
  | setRequester => exact absurd (keepsExpired_setRequester s) kept
  | openGrant => exact absurd (keepsExpired_engine cmdOpen_expired) kept
  | modify => exact absurd (keepsExpired_engine cmdModify_expired) kept
  | close => exact absurd (keepsExpired_engine cmdClose_expired) kept
  | renew => exact absurd (keepsExpired_engine cmdRenew_expired) kept
  | query => exact absurd (keepsExpired_engine cmdQuery_expired) kept
  | lookup => exact absurd (keepsExpired_engine cmdLookup_expired) kept
  | fence => exact absurd (keepsExpired_engine cmdFence_expired) kept
  | queryRequester => exact absurd (keepsExpired_engine cmdQueryRequester_expired) kept
  | resume => exact absurd (keepsExpired_engine cmdResume_expired) kept
  | resetRequester => exact absurd (keepsExpired_engine cmdResetRequester_expired) kept
  | setTiming => exact absurd (keepsExpired_engine cmdSetTiming_expired) kept
  | badop => exact absurd (keepsExpired_engine cmdBadop_expired) kept
  | submission k v => exact absurd (keepsExpired_hostAccess (State.writeSubmit_expired k v s)) kept
  | cancel k u => exact absurd (keepsExpired_hostAccess (State.writeSubmit_expired k _ s)) kept
  | hostWindowWrite o w e v => exact absurd (keepsExpired_hostWindowWrite formed s) kept
  | acknowledge v => exact absurd (keepsExpired_hostAccess (State.writeAcknowledge_expired v s)) kept
  | enable v => exact absurd (keepsExpired_hostAccess (State.setEnable_expired _ s)) kept
  | setEnable v => exact absurd (keepsExpired_hostAccess (State.setEnable_expired _ s)) kept
  | clearEnable v => exact absurd (keepsExpired_hostAccess (State.setEnable_expired _ s)) kept
  | masterEnable v => exact absurd (keepsExpired_hostAccess (State.writeMasterEnable_expired v s)) kept

end Sys2Proof.Machine
end

section
/-! PROOF. The expired set as a whole (R58, R59, R62), and what the host reads (R156, R161, R167, R176, R177). -/

namespace Sys2Proof.Machine

open Sys2Proof.Safety

/-! ### The expired set -/

theorem low_word (v : Word) : v.setWidth 64 <<< (32 * (0 : Fin 2).val) = 0#32 ++ v := by
  have joined : (0#32 ++ v : BitVec 64).toNat = (0#32).toNat <<< 32 ||| v.toNat := BitVec.toNat_append 0#32 v
  apply BitVec.eq_of_toNat_eq
  rw [joined]
  simp
  omega

theorem high_word (v : Word) : v.setWidth 64 <<< (32 * (1 : Fin 2).val) = v ++ 0#32 := by
  have joined : (v ++ 0#32 : BitVec 64).toNat = v.toNat <<< 32 ||| (0#32).toNat := BitVec.toNat_append v 0#32
  apply BitVec.eq_of_toNat_eq
  rw [joined]
  simp [Nat.shiftLeft_eq]
  omega

/-- A write of a word of the set removes the members whose bits are ones (R59). -/
theorem exec_expiredSetClear_up {s : State} (up : s.link.up = true) (w : Fin 2) (v : Word) :
    exec (.expiredSetClear w v) s = .next { s with expired := s.expired &&& ~~~ (v.setWidth 64 <<< (32 * w.val)) } := by
  have run : exec (.expiredSetClear w v) s = .next (moderate s (s.writeExpired w v)) := hostAccess_up up _
  rw [run]
  exact congrArg Host.Outcome.next (moderate_same rfl rfl rfl)

theorem State.hostRead_eq (s : State) {o : BitVec 14} (aligned : o.toNat % 4 = 0) :
    s.hostRead o 4 0xF#4 = if s.link.up then some (s.readWord o) else none := by
  simp [State.hostRead, writeTaken, aligned]

/-- Settles O49: an index joins at the expiry, leaves at a write of its bit, and no other command touches the set but to empty
it. -/
theorem expiredSetMembership : Obligations.ExpiredSetMembership := by
  refine ⟨rfl, fun s => ⟨s.hostRead_eq rfl, s.hostRead_eq rfl⟩, fun s i g grant opened due => ?_, fun s v up => ⟨?_, ?_⟩,
    fun c s t h formed changed => expired_changed h formed changed⟩
  · obtain ⟨kind, p, lease⟩ := due
    exact ⟨_, execLeaseExpiry_due grant opened lease, by rw [moderate_expired]; rfl⟩
  · rw [exec_expiredSetClear_up up, low_word]
  · rw [exec_expiredSetClear_up up, high_word]

/-! ### Reads of a slot (R177) -/

/-- A word of slot `k`, at an offset below 256, is the slot's own (R176). -/
theorem State.readWord_slot {k : SlotNo} {o : BitVec 14} {r : Nat} (hr : r < 0x100) (h : o.toNat = 0x1000 + 0x100 * k.val + r)
    (s : State) : s.readWord o = s.slots[k].readWord r := by
  obtain ⟨slot, rel⟩ := slotOfOffset_eq k o r hr h
  unfold State.readWord
  dsimp only
  rw [slot]
  dsimp only
  rw [rel]

theorem SlotState.code_eq (x : SlotState) : x.code = slotStateNumber x := by
  cases x <;> rfl

theorem Status.code_eq (x : Status) : x.code = statusNumber x := by
  cases x <;> rfl

theorem slotStateNumber_lt (x : SlotState) : slotStateNumber x < 2 ^ 2 := by
  cases x <;> decide

theorem statusNumber_lt (x : Status) : statusNumber x < 2 ^ 4 := by
  cases x <;> decide

theorem Slot.submitWord_eq (sl : Slot) :
    sl.submitWord = BitVec.ofNat 32 (sl.opcode.toNat + slotStateNumber sl.state * 2 ^ 16) := by
  have op : sl.opcode.setWidth 32 = BitVec.ofNat 32 sl.opcode.toNat :=
    BitVec.eq_of_toNat_eq (by simp)
  unfold Slot.submitWord
  rw [SlotState.code_eq, op, or_put sl.opcode.isLt (by norm_num), Nat.mod_eq_of_lt (slotStateNumber_lt _)]

theorem Slot.statusWord_eq (sl : Slot) :
    sl.statusWord = BitVec.ofNat 32 (statusNumber sl.status + bit sl.collided * 2 ^ 8) := by
  have small := statusNumber_lt sl.status
  unfold Slot.statusWord
  rw [Status.code_eq, put_zero (by norm_num), Nat.mod_eq_of_lt small, flag_eq_put, or_put (by omega) (by norm_num), bit_mod]

/-- An argument word reads as it stands (R177). -/
theorem Slot.readWord_arg (sl : Slot) (n : Fin 28) : sl.readWord (0x10 + 4 * n.val) = sl.args[n] := by
  have number : (0x10 + 4 * n.val - 0x10) / 4 = n.val := by omega
  unfold Slot.readWord Slot.arg
  rw [if_neg (by omega), if_neg (by omega), if_pos (by omega), number]
  simp

theorem Slot.readWord_result (sl : Slot) (n : Fin 32) : sl.readWord (0x80 + 4 * n.val) = sl.result[n] := by
  have number : (0x80 + 4 * n.val - 0x80) / 4 = n.val := by omega
  unfold Slot.readWord
  rw [if_neg (by omega), if_neg (by omega), if_neg (by omega), if_pos (by omega), number]
  simp

/-- The moderation state word (R161). -/
theorem State.readWord_moderation (s : State) : s.readWord 0x011C#14
    = BitVec.ofNat 32 (s.notice.eventCount % 256 + bit s.notice.holdoffTimer.isSome * 256) := by
  have word : s.readWord 0x011C#14 = put 0 8 s.notice.eventCount ||| flag 8 s.notice.holdoffTimer.isSome := rfl
  rw [word, put_zero (by norm_num), flag_eq_put, or_put (Nat.mod_lt _ (by norm_num)) (by norm_num), bit_mod]
  rfl

/-- A read that is not of one whole word, and one at an undefined offset, returns 0 (R167). -/
theorem State.hostRead_zero {s : State} (up : s.link.up = true) {o : BitVec 14} {w : Nat} {e : BitVec 4}
    (h : o.toNat % 4 ≠ 0 ∨ w ≠ 4 ∨ e ≠ 0xF#4 ∨ undefinedOffset o) : s.hostRead o w e = some 0#32 := by
  unfold State.hostRead
  rw [if_pos up]
  cases taken : writeTaken o w e with
  | false => rfl
  | true =>
    have undefined : o.toNat % 4 = 0 ∧ undefinedOffset o := by
      simp only [writeTaken, Bool.and_eq_true, beq_iff_eq] at taken
      obtain ⟨⟨aligned, width⟩, enabled⟩ := taken
      tauto
    rw [State.readWord_undefined undefined.2 undefined.1]
    rfl

/-- Settles O50: word by word. -/
theorem hostReads : Obligations.HostReads := by
  intro s up
  have identity : ∀ {o : BitVec 14} {v : Word}, o.toNat % 4 = 0 → s.readWord o = v → s.hostRead o 4 0xF#4 = some v :=
    fun aligned hv => by rw [State.hostRead_up up aligned, hv]
  refine ⟨identity rfl rfl, identity rfl rfl, identity rfl rfl, identity rfl rfl, identity rfl rfl, identity rfl rfl,
    identity rfl rfl, identity rfl rfl, identity rfl s.readWord_moderation, fun o w e => State.hostRead_zero up,
    fun k o => ⟨fun h => ?_, fun h => ?_, fun n h => ?_, fun n h => ?_⟩⟩
  · refine identity (by omega) ((State.readWord_slot (k := k) (r := 0) (by omega) (by omega) s).trans ?_)
    exact Slot.submitWord_eq _
  · refine identity (by omega) ((State.readWord_slot (k := k) (r := 4) (by omega) (by omega) s).trans ?_)
    exact Slot.statusWord_eq _
  · refine identity (by omega) ((State.readWord_slot (k := k) (r := 0x10 + 4 * n.val) (by omega) (by omega) s).trans ?_)
    exact Slot.readWord_arg _ n
  · refine identity (by omega) ((State.readWord_slot (k := k) (r := 0x80 + 4 * n.val) (by omega) (by omega) s).trans ?_)
    exact Slot.readWord_result _ n

end Sys2Proof.Machine
end

section
/-! PROOF. The commands of the engine that were left: a mapping MODIFY (R40, R41), CLOSE (R44 to R47), SET-TIMING (R147) and an
opcode that names no command (R143). -/

namespace Sys2Proof.Machine

open Sys2Proof.Safety

/-! ### A mapping MODIFY -/

/-- The arguments of a mapping MODIFY are good when its presence set is and its lease and its new generation can be formed
(R37). -/
theorem modifyGood_of_mapping {sl : Slot} {g : Grant} {n : Generation} {l : Lease} {tag : Word} (fields : presenceGood sl 6)
    (new : newGeneration sl g n) (supplied : leaseAndTag sl g l tag) : modifyGood sl g := by
  obtain ⟨lease, -⟩ := supplied
  refine ⟨fields, fun h4 => ⟨l, ?_⟩, fun _ => ⟨n, new⟩⟩
  rwa [if_pos h4] at lease

/-- A mapping MODIFY that passes R36 maps the grant anew (R40, R41). -/
theorem cmdModify_remap {k : SlotNo} {s : State} {i : GrantIdx} {g : Grant} {n : Generation} {l : Lease} {tag : Word}
    (h : named s s.slots[k] i g) (opened : g.phase = .opened) (fields : presenceGood s.slots[k] 6) (maps : mapsAnew s.slots[k])
    (new : newGeneration s.slots[k] g n) (supplied : leaseAndTag s.slots[k] g l tag) (clear : lengthClear s s.slots[k] i g n) :
    cmdModify k s = s.remap k { index := i, seq := s.grants[i].seq } g := by
  have good := Slot.modifyArgsGood_iff.mpr (modifyGood_of_mapping fields new supplied)
  have fits : ¬ (present s.slots[k] 1 = true ∧ s.overlaps (some i) g.localBase.toNat s.slots[k].length = true) := by
    rintro ⟨h1, meets⟩
    obtain ⟨-, -, len, -⟩ := new
    rw [if_pos h1, ← Slot.length_eq] at len
    have free := (State.overlaps_iff s (some i) g.localBase.toNat n.length).mpr (clear h1)
    rw [len, meets] at free
    cases free
  rw [cmdModify_admitted h (.inl opened), if_neg (by simp [-Fin.getElem_fin, good]), if_neg fits,
    if_pos ((namesMapping_iff _).mpr maps)]

/-- What the new mapping makes of the grant: in one change, or draining the old generation. -/
theorem State.remap_eq {k : SlotNo} {s : State} {h : Handle} {g : Grant} {n : Generation} {l : Lease} {tag : Word}
    (new : newGeneration s.slots[k] g n) (supplied : leaseAndTag s.slots[k] g l tag) :
    s.remap k h g =
      if g.cur.count = 0 then (s.setGrant h.index { g with cur := n, lease := l, tag := tag }).finish k (resultModify h n.number)
      else
        (s.setGrant h.index { g with
          phase := .draining
            { number := g.cur.number, length := g.cur.length, hostBase := g.cur.hostBase, count := g.cur.count }
          cur := n, lease := l, tag := tag, waiting := some k }).wait k (resultModify h n.number) := by
  obtain ⟨lease, rfl⟩ := supplied
  unfold State.remap
  rw [Slot.nextGeneration_iff.mpr new, Slot.nextLease_iff.mpr lease]
  rfl

/-- Settles O27: the checks of R36 pass, and the traffic of the old generation decides. -/
theorem mappingModify : Obligations.MappingModify := by
  intro s k rest i g n l tag front named opened fields maps new supplied clear
  have run := cmdModify_remap (s := { s with order := rest }) named opened fields maps new supplied clear
  rw [State.remap_eq (s := { s with order := rest }) new supplied] at run
  refine ⟨fun idle => ⟨_, exec_modify_atFront front, ?_⟩, fun traffic => ?_⟩
  · rw [run, if_pos idle]
    apply moderate_settles
    rw [State.finish_eq, writeResult_modify]
    rfl
  · rw [exec_modify_atFront front, run, if_neg traffic, State.wait_eq, writeResult_modify]
    exact congrArg Host.Outcome.next (moderate_same rfl rfl rfl)

/-! ### CLOSE -/

/-- CLOSE is executed at the front of the submission order (R141). -/
theorem exec_close_atFront {s : State} {k : SlotNo} {rest : List SlotNo} (h : atFront s k rest 0x0003#16) :
    exec .close s = .next (moderate s (cmdClose k { s with order := rest })) := by
  have run : execClose s = answerNext s (cmdClose k { s with order := rest }) := engine_eq h rfl
  exact run

theorem put_closeCause (c : CloseCause) : put 8 2 c.code = causeWord c := by
  cases c <;> rfl

/-- The result area of a CLOSE: the handle and the cause (R180). -/
theorem writeResult_close (i : GrantIdx) (q : Seq) (c : CloseCause) (area : Vector Word 32) :
    writeResult (resultClose { index := i, seq := q } c) area = (area.set 0 (handleWord i q)).set 11 (causeWord c) := by
  unfold resultClose
  iterate 2 rw [writeResult_cons _ _ _ (by decide)]
  rw [writeResult_nil, Handle.word_eq, put_closeCause]

theorem cmdClose_stale {k : SlotNo} {s : State} (h : staleHandle s s.slots[k]) : cmdClose k s = s.endSlot k .stale := by
  unfold cmdClose
  dsimp only
  rw [State.byHandle_stale h]

/-- A CLOSE of a grant that is not closing yet begins its closing (R45). -/
theorem cmdClose_begins {k : SlotNo} {s : State} {i : GrantIdx} {g : Grant} (h : named s s.slots[k] i g)
    (opened : g.phase.isClosing = false) : cmdClose k s = s.beginClose k { index := i, seq := s.grants[i].seq } g := by
  obtain ⟨handle, found⟩ := State.byHandle_named h
  unfold cmdClose
  dsimp only
  rw [found]
  dsimp only
  rw [handle]
  split
  · rename_i hp
    rw [hp] at opened
    cases opened
  · rfl

/-- A CLOSE of a CLOSING grant: it adopts the closing, unless a slot waits on it (R47). -/
theorem cmdClose_closing {k : SlotNo} {s : State} {i : GrantIdx} {g : Grant} {c : CloseCause} {p : Option PrevGeneration}
    (h : named s s.slots[k] i g) (closing : g.phase = .closing c p) :
    cmdClose k s = if g.waiting.isSome then s.endSlot k .state
      else (s.setGrant i { g with waiting := some k }).wait k (resultClose { index := i, seq := s.grants[i].seq } c) := by
  obtain ⟨handle, found⟩ := State.byHandle_named h
  unfold cmdClose
  dsimp only
  rw [found]
  dsimp only
  rw [handle, closing]

/-- A slot that the closing grant does not wait on is as it was when the waiting slot has ended. -/
theorem slotsReported_other {slots : Vector Slot 4} {w : Option SlotNo} {k : SlotNo} (h : w ≠ some k) (st : Status) :
    (slotsReported slots w st)[k] = slots[k] := by
  rw [slotsReported_get, if_neg h]

/-- Settles O29: what is in flight decides between freeing and waiting; the slot at the front is not the one overtaken. -/
theorem closeFreesOrWaits : Obligations.CloseFreesOrWaits := by
  intro s k rest i g front named opened other
  have run := cmdClose_begins (s := { s with order := rest }) named opened
  refine ⟨fun idle => ⟨_, exec_close_atFront front, ?_⟩, fun traffic => ⟨_, exec_close_atFront front, ?_⟩⟩
  · rw [run, State.beginClose_freed idle _ rfl, writeResult_close]
    exact settles_setCauses _ rfl
  · rw [run, State.beginClose_waits traffic, writeResult_close]
    have kept := slotsReported_other (slots := s.slots) other .overtaken
    dsimp only
    rw [kept]
    exact settles_setCauses _ rfl

/-- Settles O30: by the handle, the state of the grant and the slot that waits on it. -/
theorem closeAdoptsOrIsRefused : Obligations.CloseAdoptsOrIsRefused := by
  intro s k rest front
  refine ⟨fun stale => ⟨_, exec_close_atFront front, ?_⟩, fun i g c p named closing => ?_⟩
  · rw [cmdClose_stale (s := { s with order := rest }) stale]
    exact endSlot_endsWith
  · have run := cmdClose_closing (s := { s with order := rest }) named closing
    refine ⟨fun waited => ⟨_, exec_close_atFront front, ?_⟩, fun unwaited => ?_⟩
    · rw [run, if_pos (Option.isSome_iff_ne_none.mpr waited)]
      exact endSlot_endsWith
    · rw [exec_close_atFront front, run, if_neg (by rw [unwaited]; exact Bool.false_ne_true), State.wait_eq, writeResult_close]
      exact congrArg Host.Outcome.next (moderate_same rfl rfl rfl)

/-! ### SET-TIMING -/

theorem exec_setTiming_atFront {s : State} {k : SlotNo} {rest : List SlotNo} (h : atFront s k rest 0x000C#16) :
    exec .setTiming s = .next (moderate s (cmdSetTiming k { s with order := rest })) := by
  have run : execSetTiming s = answerNext s (cmdSetTiming k { s with order := rest }) := engine_eq h rfl
  exact run

/-- The result area of a SET-TIMING: the three parameters (R180). -/
theorem writeResult_setTiming (t : Timing) (area : Vector Word 32) :
    writeResult (resultSetTiming t) area
      = area.set 0 (BitVec.ofNat 32 (t.timeout % 256 + t.threshold % 256 * 2 ^ 8 + t.holdoff % 256 * 2 ^ 16)) := by
  unfold resultSetTiming
  rw [writeResult_cons _ _ _ (by decide), writeResult_nil, put_zero (by norm_num), or_put (by omega) (by norm_num),
    or_put (by omega) (by norm_num)]
  rfl

/-- Settles O40: the parameters are set in the state that the slot ends in, and moderation sees the threshold changed. -/
theorem setTimingAppliesOrRefuses : Obligations.SetTimingAppliesOrRefuses := by
  intro s k rest tm front timing
  refine ⟨fun bad => ⟨_, exec_setTiming_atFront front, ?_⟩, fun good => ⟨_, exec_setTiming_atFront front, ?_⟩⟩
  · have refused : cmdSetTiming k { s with order := rest } = ({ s with order := rest } : State).endSlot k .badarg := by
      unfold cmdSetTiming
      rw [show ({ s with order := rest } : State).slots[k].nextTiming _ = none from Slot.nextTiming_none bad _]
    rw [refused]
    exact endSlot_endsWith
  · have applied : cmdSetTiming k { s with order := rest }
        = ({ s with order := rest, timing := tm } : State).finish k (resultSetTiming tm) := by
      unfold cmdSetTiming
      rw [show ({ s with order := rest } : State).slots[k].nextTiming _ = _ from Slot.nextTiming_some good _]
      dsimp only
      rw [timing]
    rw [applied]
    apply moderate_settles
    rw [State.finish_eq, writeResult_setTiming]
    rfl

/-! ### Opcodes that name no command -/

theorem namesNoCommand_of {op : BitVec 16} (unknown : op = 0#16 ∨ 0x000C#16 < op) (opcode : op ≠ 0x00FF#16) :
    namesNoCommand op = true := by
  have above : 0x000C#16 < op → 12 < op.toNat := fun h => h
  unfold namesNoCommand Config.cancelCode
  simp only [Bool.and_eq_true, Bool.or_eq_true, beq_iff_eq, decide_eq_true_eq, bne_iff_ne]
  exact ⟨unknown.imp_right above, opcode⟩

/-- Settles O41: the engine's row for such an opcode ends the slot and does nothing else. -/
theorem unknownOpcodeEndsBadop : Obligations.UnknownOpcodeEndsBadop := by
  intro s k rest op front unknown opcode
  have run : execBadop s = answerNext s (cmdBadop k { s with order := rest }) :=
    engine_eq front (namesNoCommand_of unknown opcode)
  exact ⟨_, run, endSlot_endsWith⟩

end Sys2Proof.Machine
end

section
/-! PROOF. QUERY (R25, R26, R180): what its three modes read, and the sixteen words that it writes of a grant, each as the sum of its
fields. -/

namespace Sys2Proof.Machine

open Sys2Proof.Safety

/-! ### The modes -/

theorem exec_query_atFront {s : State} {k : SlotNo} {rest : List SlotNo} (h : atFront s k rest 0x0005#16) :
    exec .query s = .next (moderate s (cmdQuery k { s with order := rest })) := by
  have run : execQuery s = answerNext s (cmdQuery k { s with order := rest }) := engine_eq h rfl
  exact run

theorem cmdQuery_exact {k : SlotNo} {s : State} (h : s.slots[k].mode = 0#8) :
    cmdQuery k s = s.finish k (s.recordResult s.slots[k].index) :=
  if_pos h

theorem cmdQuery_next {k : SlotNo} {s : State} (h : s.slots[k].mode = 1#8) :
    cmdQuery k s = match s.firstGrantFrom s.slots[k].index with
      | some i => s.finish k (s.recordResult i)
      | none => s.finish k resultQueryNone :=
  (if_neg (by rw [h]; decide)).trans (if_pos h)

theorem cmdQuery_badarg {k : SlotNo} {s : State} (h : 2#8 ≤ s.slots[k].mode) : cmdQuery k s = s.endSlot k .badarg := by
  have low : ∀ m : BitVec 8, 2#8 ≤ m → m ≠ 0#8 ∧ m ≠ 1#8 := by decide
  unfold cmdQuery
  dsimp only
  rw [if_neg (low _ h).1, if_neg (low _ h).2]

theorem State.firstGrantFrom_none {s : State} {i : GrantIdx} (h : ∀ j : GrantIdx, i ≤ j → s.grants[j].grant = none) :
    s.firstGrantFrom i = none := by
  unfold State.firstGrantFrom
  rw [List.find?_eq_none]
  intro j _ hj
  rw [Bool.and_eq_true, decide_eq_true_eq] at hj
  rw [h j hj.1] at hj
  cases hj.2

/-- A QUERY that reads index `j` writes the record there (R25). -/
theorem cmdQuery_queried {k : SlotNo} {s : State} {j : GrantIdx} (h : queried s s.slots[k] j) :
    cmdQuery k s = s.finish k (s.recordResult j) := by
  obtain ⟨mode, rfl⟩ | ⟨mode, found⟩ := id h
  · exact cmdQuery_exact mode
  · rw [cmdQuery_next mode, State.firstGrantFrom_eq mode h]

theorem writeResult_queryFree (i : GrantIdx) (q : Seq) (area : Vector Word 32) :
    writeResult (resultQueryFree { index := i, seq := q }) area = area.set 0 (handleWord i q) := by
  unfold resultQueryFree
  rw [writeResult_cons _ _ _ (by decide), writeResult_nil, Handle.word_eq]

theorem writeResult_queryNone (area : Vector Word 32) : writeResult resultQueryNone area = area.set 0 0x80000000#32 := by
  unfold resultQueryNone
  rw [writeResult_cons _ _ _ (by decide), writeResult_nil]
  rfl

/-- Settles O32: by the mode. -/
theorem queryOfFreeNoneAndBadMode : Obligations.QueryOfFreeNoneAndBadMode := by
  intro s k rest i front index
  refine ⟨fun mode free => ⟨_, exec_query_atFront front, ?_⟩, fun mode none => ⟨_, exec_query_atFront front, ?_⟩,
    fun mode => ⟨_, exec_query_atFront front, ?_⟩⟩
  · have result : ({ s with order := rest } : State).recordResult i
        = resultQueryFree { index := i, seq := s.grants[i].seq } := by
      unfold State.recordResult
      rw [show ({ s with order := rest } : State).grants[i].grant = .none from free]
    rw [cmdQuery_queried (s := { s with order := rest }) (.inl ⟨mode, index.symm⟩), result, ← writeResult_queryFree]
    exact finish_settles
  · have found : ({ s with order := rest } : State).firstGrantFrom s.slots[k].index = .none :=
      State.firstGrantFrom_none fun j hj => none j (index ▸ hj)
    rw [cmdQuery_next (s := { s with order := rest }) mode, found, ← writeResult_queryNone]
    exact finish_settles
  · rw [cmdQuery_badarg (s := { s with order := rest }) mode]
    exact endSlot_endsWith

/-! ### Words in sequence -/

/-- Words of a result that follow one another from word `m` of the result area. -/
def wordsFrom : Nat → List Word → List ResultWord
  | _, [] => []
  | m, w :: ws => (0x80 + 4 * m, w) :: wordsFrom (m + 1) ws

/-- Each of the words is at its place, and the others are kept (R180). -/
theorem writeResult_wordsFrom (ws : List Word) (m : Nat) (area : Vector Word 32) (n : Fin 32) (fits : m + ws.length ≤ 32) :
    (writeResult (wordsFrom m ws) area)[n] = if m ≤ n.val then (ws[n.val - m]?).getD area[n] else area[n] := by
  induction ws generalizing m area with
  | nil => simp [wordsFrom]
  | cons w ws ih =>
    rw [List.length_cons] at fits
    have place : (0x80 + 4 * m - 0x80) / 4 = m := by omega
    have get : ∀ (v : Word) (hm : m < 32), (area.set m v)[n] = if m = n.val then v else area[n] := by
      intro v hm
      simp [Vector.getElem_set]
    have first : writeResult (wordsFrom m (w :: ws)) area = writeResult (wordsFrom (m + 1) ws) (area.set m w) := by
      rw [wordsFrom, writeResult_cons _ _ _ (by omega)]
      simp only [place]
    simp only [first, ih (m + 1) _ (by omega), get]
    obtain below | rfl | above := Nat.lt_trichotomy n.val m
    · rw [if_neg (show ¬ m + 1 ≤ n.val by omega), if_neg (show ¬ m = n.val by omega), if_neg (show ¬ m ≤ n.val by omega)]
    · rw [if_neg (show ¬ n.val + 1 ≤ n.val by omega), if_pos rfl, if_pos le_rfl, Nat.sub_self]
      rfl
    · have index : n.val - m = n.val - (m + 1) + 1 := by omega
      rw [if_pos (show m + 1 ≤ n.val by omega), if_pos (show m ≤ n.val by omega), if_neg (show ¬ m = n.val by omega), index,
        List.getElem?_cons_succ]

/-- The sixteen words of a grant follow one another. -/
theorem resultQueryGrant_wordsFrom (h : Handle) (g : Grant) :
    resultQueryGrant h g = wordsFrom 0 ((resultQueryGrant h g).map Prod.snd) :=
  rfl

/-! ### The words of a grant -/

theorem toNat_word {n : Nat} (h : n < 2 ^ 32) : (BitVec.ofNat 32 n).toNat = n := by
  rw [BitVec.toNat_ofNat, Nat.mod_eq_of_lt h]

theorem leaseNumbers_eq (g : Grant) : leaseNumbers g = (g.lease.code, g.lease.periodField, g.remainingMs) := by
  rw [Grant.remainingMs_eq]
  unfold leaseNumbers
  cases g.lease with
  | untimed => rfl
  | timed kind p r => cases kind <;> rfl

theorem Phase.code_eq (g : Grant) : g.phase.code = stateNumber g := by
  unfold Phase.code stateNumber
  cases g.phase <;> rfl

theorem stateNumber_lt (g : Grant) : stateNumber g < 2 ^ 2 := by
  unfold stateNumber
  split <;> decide

theorem causeNumber_lt (g : Grant) : causeNumber g < 2 ^ 2 := by
  unfold causeNumber
  split <;> decide

theorem Lease.code_lt (l : Lease) : l.code < 2 ^ 8 := by
  unfold Lease.code
  split <;> decide

theorem Lease.periodField_lt (l : Lease) : l.periodField < 2 ^ 16 := by
  unfold Lease.periodField
  split
  · decide
  · exact BitVec.isLt _

theorem bit_le (b : Bool) : bit b ≤ 1 := by
  cases b <;> decide

/-- The close cause is absent exactly when its number is 0. -/
theorem cause_isSome (g : Grant) : g.phase.cause.isSome = (causeNumber g != 0) := by
  unfold causeNumber
  cases g.phase with
  | opened | draining => rfl
  | closing c p => cases c <;> rfl

section
variable (i : GrantIdx) (q : Seq) (g : Grant)

theorem queryWord_handle :
    (({ index := i, seq := q } : Handle).word ||| put 16 2 g.phase.code).toNat = grantReported i q g 0 := by
  have hq := q.isLt
  have hi : i.val < 2 ^ 6 := i.isLt
  have hs := stateNumber_lt g
  change _ = q.toNat + i.val * 2 ^ 8 + stateNumber g * 2 ^ 16
  unfold Handle.word
  dsimp only
  rw [put_zero (by norm_num)]
  iterate 2 rw [or_put (by omega) (by norm_num)]
  rw [Phase.code_eq, Nat.mod_eq_of_lt hq, Nat.mod_eq_of_lt hs, Nat.mod_eq_of_lt hi, toNat_word (by omega)]

theorem queryWord_presence :
    (flag 0 true ||| flag 1 g.phase.prev.isSome ||| flag 2 g.phase.cause.isSome ||| flag 3 (g.lease.code != 0)
      ||| flag 4 g.waiting.isSome).toNat = grantReported i q g 1 := by
  have hp := bit_le (previous g).isSome
  have hc := bit_le (causeNumber g != 0)
  have hl := bit_le (g.lease.code != 0)
  have hw := bit_le g.waiting.isSome
  have reported : grantReported i q g 1 = 1 + bit (previous g).isSome * 2 + bit (causeNumber g != 0) * 4
      + bit (g.lease.code != 0) * 8 + bit g.waiting.isSome * 16 := by
    unfold grantReported
    rw [leaseNumbers_eq]
    rfl
  rw [reported, previous_eq, cause_isSome, show flag 0 true = BitVec.ofNat 32 1 from rfl]
  simp only [flag_eq_put]
  iterate 4 rw [or_put (by omega) (by norm_num), bit_mod]
  rw [toNat_word (by omega)]
  omega

theorem queryWord_localBase : (g.localBase.setWidth 32).toNat = grantReported i q g 2 := by
  have hb := g.localBase.isLt
  change _ = g.localBase.toNat
  rw [BitVec.toNat_setWidth, Nat.mod_eq_of_lt (by omega)]

theorem queryWord_current :
    (put 0 4 g.cur.number.toNat ||| put 8 2 g.cur.rights.toNat ||| put 16 8 g.cur.clients.toNat).toNat
      = grantReported i q g 3 := by
  have hn := g.cur.number.isLt
  have hr := g.cur.rights.isLt
  have hc := g.cur.clients.isLt
  change _ = g.cur.number.toNat + g.cur.rights.toNat * 2 ^ 8 + g.cur.clients.toNat * 2 ^ 16
  rw [put_zero (by norm_num)]
  iterate 2 rw [or_put (by omega) (by norm_num)]
  rw [Nat.mod_eq_of_lt hn, Nat.mod_eq_of_lt hr, Nat.mod_eq_of_lt hc, toNat_word (by omega)]

theorem lowWord_toNat (a : HostAddr) : (lowWord a).toNat = a.toNat % 2 ^ 32 := by
  unfold lowWord
  rw [BitVec.extractLsb'_toNat, Nat.shiftRight_zero]

theorem highWord_toNat (a : HostAddr) : (highWord a).toNat = a.toNat / 2 ^ 32 := by
  have ha := a.isLt
  unfold highWord
  rw [BitVec.extractLsb'_toNat, Nat.shiftRight_eq_div_pow, Nat.mod_eq_of_lt (by omega)]

theorem queryWord_counts :
    (put 0 6 g.cur.count ||| (match g.phase.prev with
      | some p => put 8 6 p.count ||| put 16 4 p.number.toNat
      | none => 0#32)).toNat = grantReported i q g 7 := by
  change _ = g.cur.count % 2 ^ 6
    + (previous g).elim 0 fun p => p.count % 2 ^ 6 * 2 ^ 8 + p.number.toNat * 2 ^ 16
  rw [previous_eq, put_zero (by norm_num)]
  cases previous g with
  | none =>
    dsimp only
    rw [BitVec.or_zero, toNat_word (by omega)]
    rfl
  | some p =>
    have hn := p.number.isLt
    dsimp only [Option.elim]
    rw [← BitVec.or_assoc]
    iterate 2 rw [or_put (by omega) (by norm_num)]
    rw [Nat.mod_eq_of_lt hn, toNat_word (by omega)]
    omega

theorem queryWord_lease :
    (put 0 8 g.lease.code ||| (match g.phase.cause with | some c => put 8 2 c.code | none => 0#32)
      ||| (match g.waiting with | some k => put 16 2 k.val | none => 0#32)).toNat = grantReported i q g 11 := by
  have hl := g.lease.code_lt
  have hc := causeNumber_lt g
  have cause : (match g.phase.cause with | some c => put 8 2 c.code | none => 0#32) = put 8 2 (causeNumber g) := by
    unfold causeNumber
    cases g.phase with
    | opened | draining => rfl
    | closing c p => cases c <;> rfl
  have reported : grantReported i q g 11
      = g.lease.code + causeNumber g * 2 ^ 8 + g.waiting.elim 0 (fun k => k.val * 2 ^ 16) := by
    unfold grantReported
    rw [leaseNumbers_eq]
    rfl
  rw [reported, cause, put_zero (by norm_num), or_put (by omega) (by norm_num), Nat.mod_eq_of_lt hl, Nat.mod_eq_of_lt hc]
  cases g.waiting with
  | none =>
    dsimp only [Option.elim]
    rw [BitVec.or_zero, toNat_word (by omega)]
    rfl
  | some k =>
    have hk : k.val < 2 ^ 2 := k.isLt
    dsimp only [Option.elim]
    rw [or_put (by omega) (by norm_num), Nat.mod_eq_of_lt hk, toNat_word (by omega)]

theorem queryWord_time :
    (put 0 16 g.lease.periodField ||| put 16 16 g.remainingMs).toNat = grantReported i q g 12 := by
  have hp := g.lease.periodField_lt
  have reported : grantReported i q g 12 = g.lease.periodField + g.remainingMs % 2 ^ 16 * 2 ^ 16 := by
    unfold grantReported
    rw [leaseNumbers_eq]
    rfl
  rw [reported, put_zero (by norm_num), or_put (by omega) (by norm_num), Nat.mod_eq_of_lt hp, toNat_word (by omega)]

/-- A word of the previous generation, 0 when absent. -/
theorem queryWord_previous (word : PrevGeneration → Word) :
    (match g.phase.prev with | some p => word p | none => 0#32).toNat = (previous g).elim 0 fun p => (word p).toNat := by
  rw [previous_eq]
  cases previous g <;> rfl

/-- Each of the sixteen words, by its number. -/
theorem queryWord_toNat {n : Nat} (hn : n < 16) :
    ∃ w, ((resultQueryGrant { index := i, seq := q } g).map Prod.snd)[n]? = some w ∧ w.toNat = grantReported i q g n := by
  have length : ∀ v : Nat, (BitVec.ofNat 32 v).toNat = v % 2 ^ 32 := fun v => BitVec.toNat_ofNat v 32
  refine ⟨_, List.getElem?_eq_getElem (by simpa [resultQueryGrant] using hn), ?_⟩
  interval_cases n
  · exact queryWord_handle i q g
  · exact queryWord_presence i q g
  · exact queryWord_localBase i q g
  · exact queryWord_current i q g
  · exact length _
  · exact lowWord_toNat _
  · exact highWord_toNat _
  · exact queryWord_counts i q g
  · exact (queryWord_previous g fun p => BitVec.ofNat 32 p.length).trans (by simp only [length]; rfl)
  · exact (queryWord_previous g fun p => lowWord p.hostBase).trans (by simp only [lowWord_toNat]; rfl)
  · exact (queryWord_previous g fun p => highWord p.hostBase).trans (by simp only [highWord_toNat]; rfl)
  · exact queryWord_lease i q g
  · exact queryWord_time i q g
  · exact length _
  · exact length _
  · rfl

end

/-- Settles O33: the words follow one another from the first, and each is the sum of its fields. -/
theorem queryReportsGrant : Obligations.QueryReportsGrant := by
  intro s k rest j g front asked grant
  have result : ({ s with order := rest } : State).recordResult j
      = resultQueryGrant { index := j, seq := s.grants[j].seq } g := by
    unfold State.recordResult
    rw [show ({ s with order := rest } : State).grants[j].grant = some g from grant]
  refine ⟨_, writeResult (resultQueryGrant { index := j, seq := s.grants[j].seq } g) s.slots[k].result,
    exec_query_atFront front, ?_, fun n => ?_⟩
  · rw [cmdQuery_queried (s := { s with order := rest }) asked, result]
    exact finish_settles
  · rw [resultQueryGrant_wordsFrom, writeResult_wordsFrom _ _ _ _ (by simp [resultQueryGrant]), if_pos (Nat.zero_le _),
      Nat.sub_zero]
    refine ⟨fun hn => ?_, fun hn => ?_⟩
    · obtain ⟨w, hw, number⟩ := queryWord_toNat j s.grants[j].seq g hn
      rw [hw]
      exact number
    · rw [List.getElem?_eq_none (by simpa [resultQueryGrant] using hn)]
      rfl

end Sys2Proof.Machine
end

section
/-! PROOF. SET-REQUESTER, and the grant of an eligible read that comes before a limit equal to the outstanding count (R82, R95;
log entry 21). -/

namespace Sys2Proof.Machine

open Sys2Proof.Safety

/-! ### The grants before it -/

@[simp] theorem State.tagGrant_queue (s : State) : s.tagGrant.queue = s.queue := by
  unfold State.tagGrant
  (repeat' split) <;> simp

@[simp] theorem State.grantsBefore_queue (k : SlotNo) : ∀ (n : Nat) (s : State), (s.grantsBefore k n).queue = s.queue
  | 0, _ => rfl
  | n + 1, s => by
    unfold State.grantsBefore
    split
    · rw [State.grantsBefore_queue k n, State.tagGrant_queue]
    · rfl

/-- A port is as it was before the grants to eligible reads, unless one of them took its head access away (R96). -/
theorem State.grantsBefore_port (k : SlotNo) (q : PortNo) : ∀ (n : Nat) (s : State),
    (s.grantsBefore k n).ports[q].head.isSome = true → (s.grantsBefore k n).ports[q] = s.ports[q]
  | 0, _ => fun _ => rfl
  | n + 1, s => by
    unfold State.grantsBefore
    split
    · rename_i meets
      obtain ⟨p', taken, -, gone, ports⟩ := State.tagGrant_ports (State.limitMeetsEligible_eligible meets)
      intro present
      have same := State.grantsBefore_port k q n _ present
      rw [same, ports, ports_set_get] at present
      rw [same, ports, ports_set_get]
      split at present
      · rw [gone] at present
        cases present
      · rename_i other
        rw [if_neg other]
    · exact fun _ => rfl

/-! ### The command -/

/-- The policy that a SET-REQUESTER leaves in force (R82). -/
theorem Slot.policyInForce_eq {sl : Slot} (good : requesterGood sl) (kept : FaultPolicy) :
    (if names sl.presence 0 then sl.policy.getD kept else kept)
      = if present sl 0 then (if sl.args[13].extractLsb' 0 8 = 0#8 then .carryOn else .halt) else kept := by
  obtain ⟨-, range, -⟩ := good
  rw [show sl.policy = if sl.args[13].extractLsb' 0 8 = 0#8 then some .carryOn
    else if sl.args[13].extractLsb' 0 8 = 1#8 then some .halt else none from rfl, Slot.names_eq]
  split
  · rename_i supplied
    obtain zero | one := range supplied
    · rw [if_pos zero, if_pos zero]
      rfl
    · rw [one]
      rfl
  · rfl

/-- The result area of a SET-REQUESTER: the values in force (R180). -/
theorem writeResult_setRequester (policy : FaultPolicy) (limit : Nat) (area : Vector Word 32) :
    writeResult (resultSetRequester policy limit) area
      = area.set 0 (BitVec.ofNat 32 (bit (policy == .halt) + limit % 16 * 2 ^ 8)) := by
  have small : bit (policy == .halt) < 2 ^ 8 := by cases policy <;> decide
  unfold resultSetRequester
  rw [writeResult_cons _ _ _ (by decide), writeResult_nil, put_zero (by norm_num), FaultPolicy.code_eq, bit_mod,
    or_put small (by norm_num)]
  rfl

theorem cmdSetRequester_badarg {k : SlotNo} {s : State} (bad : ¬ requesterGood s.slots[k]) :
    cmdSetRequester k s = s.endSlot k .badarg :=
  if_pos (by rwa [← Slot.requesterFault_iff, Bool.not_eq_false] at bad)

theorem cmdSetRequester_limit {k : SlotNo} {s : State} {p : PortNo} (requester : requesterOf s.slots[k] = p)
    (good : requesterGood s.slots[k]) (below : present s.slots[k] 1 = true ∧ s.slots[k].readLimit < s.ports[p].outstanding) :
    cmdSetRequester k s = s.endSlot k .limit := by
  subst requester
  exact (if_neg (Bool.eq_false_iff.mp ((Slot.requesterFault_iff _).mpr good))).trans (if_pos below)

/-- Where no check refuses it, a SET-REQUESTER sets what it supplies, in one change (R82). -/
theorem cmdSetRequester_passes {k : SlotNo} {s : State} {p : PortNo} {policy : FaultPolicy} {limit : Nat}
    (requester : requesterOf s.slots[k] = p) (sound : s.slots[k].requesterFault = false)
    (room : ¬ (names s.slots[k].presence 1 = true ∧ s.slots[k].readLimit < s.ports[p].outstanding))
    (hpolicy : policy = if names s.slots[k].presence 0 then s.slots[k].policy.getD s.ports[p].policy else s.ports[p].policy)
    (hlimit : limit = if names s.slots[k].presence 1 then s.slots[k].readLimit else s.ports[p].readLimit) :
    cmdSetRequester k s = (s.setPort p { s.ports[p] with policy := policy, readLimit := limit }).finish k
      (resultSetRequester policy limit) := by
  subst requester hpolicy hlimit
  exact (if_neg (Bool.eq_false_iff.mp sound)).trans (if_neg room)

/-- The values set are those of the argument words, and the kept ones (R82). -/
theorem cmdSetRequester_applies {k : SlotNo} {s : State} {p : PortNo} {policy : FaultPolicy} {limit : Nat}
    (requester : requesterOf s.slots[k] = p) (good : requesterGood s.slots[k])
    (hpolicy : policy = if present s.slots[k] 0 then
      (if s.slots[k].args[13].extractLsb' 0 8 = 0#8 then .carryOn else .halt) else s.ports[p].policy)
    (hlimit : limit = if present s.slots[k] 1 then (s.slots[k].args[14].extractLsb' 0 8).toNat else s.ports[p].readLimit)
    (fits : present s.slots[k] 1 = true → s.ports[p].outstanding ≤ limit) :
    cmdSetRequester k s = (s.setPort p { s.ports[p] with policy := policy, readLimit := limit }).finish k
      (resultSetRequester policy limit) := by
  refine cmdSetRequester_passes requester ((Slot.requesterFault_iff _).mpr good) ?_
    (hpolicy.trans (Slot.policyInForce_eq good _).symm) hlimit
  rintro ⟨supplied, below⟩
  rw [← Slot.readLimit_eq, ← Slot.names_eq, if_pos supplied] at hlimit
  exact absurd (fits supplied) (Nat.not_le.mpr (hlimit ▸ below))

/-- A SET-REQUESTER changes the policy and the read limit of one port at most, and sets no limit below the count (R82). -/
theorem cmdSetRequester_port (k : SlotNo) (s : State) (q : PortNo) :
    (cmdSetRequester k s).ports[q] = s.ports[q]
      ∨ ∃ policy limit, (cmdSetRequester k s).ports[q] = { s.ports[q] with policy := policy, readLimit := limit }
        ∧ (limit = s.ports[q].readLimit
          ∨ q = s.slots[k].requester ∧ s.slots[k].requesterFault = false ∧ names s.slots[k].presence 1 = true
            ∧ s.ports[q].outstanding ≤ limit ∧ s.slots[k].readLimit = limit) := by
  by_cases sound : s.slots[k].requesterFault = false
  · by_cases above : names s.slots[k].presence 1 = true ∧ s.slots[k].readLimit < s.ports[s.slots[k].requester].outstanding
    · rw [cmdSetRequester_limit rfl ((Slot.requesterFault_iff _).mp sound) above]
      exact .inl rfl
    · have ports := congrArg State.ports (cmdSetRequester_passes rfl sound above rfl rfl)
      rw [State.finish_ports, show ∀ p v, (s.setPort p v).ports = s.ports.set p v from fun _ _ => rfl] at ports
      rw [ports, ports_set_get]
      split
      · rename_i same
        subst same
        refine .inr ⟨_, _, rfl, ?_⟩
        by_cases supplied : names s.slots[k].presence 1 = true
        · rw [if_pos supplied]
          exact .inr ⟨rfl, sound, supplied, Nat.not_lt.mp fun below => above ⟨supplied, below⟩, rfl⟩
        · exact .inl (if_neg supplied)
      · exact .inl rfl
  · rw [cmdSetRequester_badarg fun good => sound ((Slot.requesterFault_iff _).mpr good)]
    exact .inl rfl

theorem cmdSetRequester_head (k : SlotNo) (s : State) (q : PortNo) : (cmdSetRequester k s).ports[q].head = s.ports[q].head := by
  obtain same | ⟨_, _, set, -⟩ := cmdSetRequester_port k s q
  · rw [same]
  · rw [set]

/-! ### What it leaves eligible -/

theorem outstanding_lt_of_mayRead {s : State} {q : PortNo} (eligible : mayRead s q = true) :
    s.ports[q].outstanding < s.ports[q].readLimit := by
  unfold mayRead at eligible
  simp only [Bool.and_eq_true, decide_eq_true_eq] at eligible
  obtain ⟨⟨⟨-, room⟩, -⟩, -⟩ := eligible
  exact room

theorem free_of_mayRead {s : State} {q : PortNo} (eligible : mayRead s q = true) : ∃ n : TagNo, s.tags[n] = .free := by
  unfold mayRead at eligible
  simp only [Bool.and_eq_true, List.any_eq_true, beq_iff_eq] at eligible
  obtain ⟨-, e, he, rfl⟩ := eligible
  obtain ⟨n, hn, found⟩ := Vector.getElem_of_mem (Vector.mem_toList_iff.mp he)
  exact ⟨⟨n, hn⟩, found⟩

/-- A head read stays eligible while it is present, its requester may have one more outstanding and some tag is FREE (R94). -/
theorem mayRead_of_head {s t : State} {q : PortNo} (eligible : mayRead s q = true) (head : t.ports[q].head = s.ports[q].head)
    (room : t.ports[q].outstanding < t.ports[q].readLimit) (queue : t.queue = s.queue) (free : ∃ n : TagNo, t.tags[n] = .free) :
    mayRead t q = true := by
  have anyFree : t.tags.toList.any (· == .free) = true := by
    obtain ⟨n, hn⟩ := free
    exact List.any_eq_true.mpr ⟨t.tags[n], Vector.mem_toList_iff.mpr (Vector.getElem_mem _), by rw [hn]; rfl⟩
  unfold mayRead at eligible ⊢
  rw [head, queue, anyFree, decide_eq_true room]
  simp only [Bool.and_eq_true] at eligible ⊢
  obtain ⟨⟨⟨kind, -⟩, quiet⟩, -⟩ := eligible
  exact ⟨⟨⟨kind, trivial⟩, quiet⟩, trivial⟩

/-- Where its limit meets no eligible read, a SET-REQUESTER makes no eligible head read ineligible (R95). -/
theorem mayRead_cmdSetRequester {k : SlotNo} {s : State} {q : PortNo} (opcode : s.slots[k].opcode = 0x0008#16)
    (done : s.limitMeetsEligible k = false) (eligible : mayRead s q = true) : mayRead (cmdSetRequester k s) q = true := by
  have free : ∃ n : TagNo, (cmdSetRequester k s).tags[n] = .free := by
    rw [cmdSetRequester_tags]
    exact free_of_mayRead eligible
  have room := outstanding_lt_of_mayRead eligible
  obtain same | ⟨policy, limit, set, rfl | ⟨rfl, sound, supplied, fits, rfl⟩⟩ := cmdSetRequester_port k s q
  · exact mayRead_of_head eligible (by rw [same]) (by rwa [same]) (cmdSetRequester_queue k s) free
  · exact mayRead_of_head eligible (by rw [set]) (by rwa [set]) (cmdSetRequester_queue k s) free
  · refine mayRead_of_head eligible (by rw [set]) ?_ (cmdSetRequester_queue k s) free
    rw [set]
    refine lt_of_le_of_ne fits fun meets => Bool.eq_false_iff.mp done ?_
    rw [State.limitMeetsEligible_iff opcode]
    exact ⟨(Slot.requesterFault_iff _).mp sound, supplied, meets.symm, eligible⟩

/-- Once the grants before it have been made, a SET-REQUESTER leaves what was eligible so, where a head read is left to be
granted and a tag to grant it (R95). -/
theorem mayRead_executed {s u : State} {k : SlotNo} {rest : List SlotNo} {q : PortNo}
    (port : u.ports[q].head.isSome = true → u.ports[q] = s.ports[q]) (queue : u.queue = s.queue)
    (opcode : u.slots[k].opcode = 0x0008#16) (done : u.limitMeetsEligible k = false) (eligible : mayRead s q = true)
    (present : (moderate u (cmdSetRequester k { u with order := rest })).ports[q].head.isSome = true)
    (free : ∃ n : TagNo, (moderate u (cmdSetRequester k { u with order := rest })).tags[n] = .free) :
    mayRead (moderate u (cmdSetRequester k { u with order := rest })) q = true := by
  rw [moderate_ports, cmdSetRequester_head] at present
  have tags : ∃ n : TagNo, u.tags[n] = .free := by
    rwa [moderate_tags, cmdSetRequester_tags] at free
  have same := port present
  have before : mayRead { u with order := rest } q = true :=
    mayRead_of_head eligible (congrArg Port.head same) (by rw [same]; exact outstanding_lt_of_mayRead eligible) queue tags
  have after : mayRead (cmdSetRequester k { u with order := rest }) q = true := mayRead_cmdSetRequester opcode done before
  have room := outstanding_lt_of_mayRead after
  exact mayRead_of_head after (by rw [moderate_ports]) (by rwa [moderate_ports]) (moderate_queue _ _) free

/-- Settles O36: the checks of R82 in order, and the grants before the command as its own first step. -/
theorem setRequesterAppliesOrRefuses : Obligations.SetRequesterAppliesOrRefuses := by
  intro s k rest p policy limit front requester hpolicy hlimit
  have alone (apart : ¬ Safety.limitMeetsEligible s s.slots[k] p) :
      exec .setRequester s = .next (moderate s (cmdSetRequester k { s with order := rest })) := by
    rw [← requester] at apart
    exact execSetRequester_of_not_meets front apart
  refine ⟨fun bad => ?_, fun good supplied below => ?_, fun meets => ?_, fun good fits apart => ?_,
    fun q t run eligible present free => ?_⟩
  · refine ⟨_, alone fun ⟨good, _⟩ => bad good, ?_⟩
    rw [cmdSetRequester_badarg (s := { s with order := rest }) bad]
    exact endSlot_endsWith
  · rw [hlimit, if_pos supplied] at below
    refine ⟨_, alone fun ⟨_, _, equal, _⟩ => absurd equal (Nat.ne_of_lt below), ?_⟩
    rw [cmdSetRequester_limit (s := { s with order := rest }) requester good ⟨supplied, below⟩]
    exact endSlot_endsWith
  · have front' : atFront s.tagGrant k rest 0x0008#16 := by
      simpa [atFront] using front
    have first : s.grantsBefore k 8 = s.tagGrant.grantsBefore k 8 := by
      rw [State.grantsBefore_eq, if_pos ((State.limitMeetsEligible_iff front.2).mpr (requester ▸ meets))]
    refine ⟨s.tagGrant, _, rfl, execSetRequester_eq front', ?_⟩
    rw [← first]
    exact execSetRequester_eq front
  · refine ⟨_, alone apart, ?_⟩
    rw [cmdSetRequester_applies (s := { s with order := rest }) requester good hpolicy hlimit fits]
    apply moderate_settles
    rw [State.finish_eq, writeResult_setRequester]
    rfl
  · obtain rfl := Host.Outcome.next.inj ((execSetRequester_eq front).symm.trans run)
    exact mayRead_executed (State.grantsBefore_port k q 8 s) (State.grantsBefore_queue k 8 s)
      (by rw [State.grantsBefore_slots]; exact front.2) (State.grantsBefore_done k 8 s s.heads_le) eligible present free

end Sys2Proof.Machine
end
